-- ==== Sys2Proof/Word.lean ====
section
/-! DEFINITION. The word types of the Telephony Signal Processing Core (spec 00_scope.md R7, R13; 20_memory.md R60). -/

namespace Sys2Proof

/-- A signed 16-bit sample (`i16`), two's complement: `toInt` is its value. R7 `SAMPLE_BITS`, R13. -/
abbrev Sample := BitVec 16

/-- The phase accumulator and the tuning word, unsigned 16-bit (`u16`). R7 `PHASE_BITS`, R26. -/
abbrev Phase := BitVec 16

/-- A 32-bit operand word of the command port. R89. -/
abbrev Word32 := BitVec 32

/-- A 16-bit header word of the command port. R89. -/
abbrev Header := BitVec 16

/-- An opaque 32-bit token the host supplies (callback, buffer, string). R29. -/
abbrev Handle := BitVec 32

/-- One 8-bit ASCII character. R13, R65. -/
abbrev Ascii := BitVec 8

/-- A 4-bit digit code. R7 `DIGIT_CODE_BITS`, R81. -/
abbrev DigitCode := BitVec 4

/-- A 6-bit two-of-six mask: bit `k` belongs to detector `k`. R84. -/
abbrev Mask := BitVec 6

/-- An exact rational (`Q` of R13). -/
abbrev Q := Rat

/-- Six like things, one per Goertzel detector `k` = 0 .. 5. R7 `NFREQ`. -/
structure Six (α : Type) where
  k0 : α
  k1 : α
  k2 : α
  k3 : α
  k4 : α
  k5 : α
deriving DecidableEq, Repr, Inhabited

/-- Apply a function to each of the six. -/
def Six.map {α β : Type} (f : α → β) (x : Six α) : Six β :=
  ⟨f x.k0, f x.k1, f x.k2, f x.k3, f x.k4, f x.k5⟩

/-- The six in ascending order of `k`. -/
def Six.toList {α : Type} (x : Six α) : List α :=
  [x.k0, x.k1, x.k2, x.k3, x.k4, x.k5]

end Sys2Proof
end

