-- ==== Sys2Proof/Config.lean ====
section
/-! DEFINITION. The configuration record `CFG` (00_scope.md R7 to R12), the two configurations the spec gives (REFCFG, TINYCFG),
the constants MB fixes, and the free values: opaque constants nothing in Lean can evaluate. -/

namespace Sys2Proof

/-! ## Constants the source fixes (R7, R8) -/

/-- `FS_OUT`, the output sample rate in Hz, the `Fs` of the tuning word. R7. -/
def fsOut : Nat := 8000

/-- `FS_ADC`, the ADC sample rate in Hz. R7. -/
def fsAdc : Nat := 16000

/-- `FRAME_MS`, the frame length in milliseconds. R7. -/
def frameMs : Nat := 20

/-- `FRAME_N` = 320, the samples of one frame. R8. -/
def frameN : Nat := fsAdc * frameMs / 1000

/-- `GZ_FREQ`, the six detector frequencies in Hz. R7. -/
def gzFreq : Six Nat := ⟨700, 900, 1100, 1300, 1500, 1700⟩

/-! ## The configuration record -/

/-- A pair of component frequencies in Hz: a row of `MF_PAIR` or `DTMF_PAIR`. R85, R86. -/
structure FreqPair where
  fa : Q
  fb : Q
deriving DecidableEq, Repr, Inhabited

/-- A pair of linear gains, one per component. R9 `MF_GAIN`, `DTMF_GAIN`. -/
structure GainPair where
  g0 : Q
  g1 : Q
deriving DecidableEq, Repr, Inhabited

/-- A call-progress tone: two (frequency Hz, linear gain) components. R9 `DIAL`, `BUSY`, `CONG`, `RING`. -/
structure ToneSpec where
  f0 : Q
  g0 : Q
  f1 : Q
  g1 : Q
deriving DecidableEq, Repr, Inhabited

/-- `P_BYTE_ORDER`, left to the platform and read by no rule. R66, D39. -/
inductive ByteOrder where
  | little
  | big
deriving DecidableEq, Repr, Inhabited

/-- `NUMERICS`, the arithmetic the filter bank computes in (R200, D30): the spec's reference instance, exact without rounding, or
a platform's own arithmetic, one of the uninterpreted `Config.platformOp` (U2, log entry 8). -/
inductive Numerics where
  | exact
  | platform (id : Nat)
deriving DecidableEq, Repr, Inhabited

/-- The four operations of `Num` whose result an arithmetic may round (R200). -/
inductive NumOp where
  | add
  | sub
  | mul
  | div
deriving DecidableEq, Repr, Inhabited

/-- The configuration record `CFG`: every open parameter of R9, with R201's approximated coefficients. It is immutable
(R39): no step writes it. -/
structure Cfg where
  /-- `TABLE_BITS`: log2 of the sine table's length. -/
  tableBits : Nat
  /-- `SINE_TABLE`: one cycle of signed 16-bit samples. No rule assumes anything of the values (R101). -/
  sineTable : List Sample
  /-- `BLOCK_FRAMES`: stereo frames of one output half-buffer. -/
  blockFrames : Nat
  /-- `ZC_THRESHOLD`: half-width of the zero-cross band. -/
  zcThreshold : Nat
  /-- `MAX_DIGITS`: capacity of a channel's outpulsing digit buffer. -/
  maxDigits : Nat
  /-- `DIAL`: continuous, no cadence (C5). -/
  dial : ToneSpec
  /-- `BUSY`. -/
  busy : ToneSpec
  /-- `BUSY_CADENCE_MS`: the one duration of tone and silence (C10). -/
  busyCadenceMs : Q
  /-- `CONG`. -/
  cong : ToneSpec
  /-- `CONG_CADENCE_MS`. -/
  congCadenceMs : Q
  /-- `RING`. -/
  ring : ToneSpec
  /-- `RING_ON_MS`. -/
  ringOnMs : Q
  /-- `RING_OFF_MS`. -/
  ringOffMs : Q
  /-- `MF_PAIR[0x0 .. 0xE]` (R85). -/
  mfPair : List FreqPair
  /-- `MF_GAIN`. -/
  mfGain : GainPair
  /-- `MF_ACTIVE_MS`. -/
  mfActiveMs : Nat
  /-- `MF_INACTIVE_MS`. -/
  mfInactiveMs : Nat
  /-- `MF_KP_MS`. -/
  mfKpMs : Nat
  /-- `MF_ST_MS`. -/
  mfStMs : Nat
  /-- `DTMF_PAIR[0x0 .. 0xF]`, (low, high) (R86). -/
  dtmfPair : List FreqPair
  /-- `DTMF_GAIN` = (g_low, g_high). -/
  dtmfGain : GainPair
  /-- `DTMF_ACTIVE_MS`. -/
  dtmfActiveMs : Nat
  /-- `DTMF_INACTIVE_MS`. -/
  dtmfInactiveMs : Nat
  /-- `ADC_BITS`: width of a raw ADC sample. -/
  adcBits : Nat
  /-- `ADC_CENTER`: the fixed ADC-centre offset. -/
  adcCenter : Nat
  /-- `SILENCE_THRESHOLD`: the tone-present power threshold. -/
  silenceThreshold : Q
  /-- `MIN_KP_GATE_BLOCK_COUNT`. -/
  minKpGateBlockCount : Nat
  /-- `MIN_DIGIT_BLOCK_COUNT`. -/
  minDigitBlockCount : Nat
  /-- `MF_INTERDIGIT_TIMEOUT`, in frames. -/
  mfInterdigitTimeout : Nat
  /-- `MF_MAX_DIGITS`: capacity of the received-digit buffer. -/
  mfMaxDigits : Nat
  /-- `P_EMPTY_ABORT_CALLBACK` (C6, D18). -/
  emptyAbortCallback : Bool
  /-- `GZ_COEFF`: rational approximations of `2 cos(2 pi GZ_FREQ[k] / FS_ADC)` (R201, R210). How close they must be is left
  open; the model sets no bound (DESIGN CHOICE, log entry 30). -/
  gzCoeff : Six Q
  /-- `P_BYTE_ORDER` (R66): read by no rule. -/
  byteOrder : ByteOrder
  /-- `NUMERICS` (R200): read by the filter bank. -/
  numerics : Numerics
deriving DecidableEq, Repr, Inhabited

/-! ## The tables of R41, R42, R85, R86, R201 -/

/-- Entries 0 to 127 of REFCFG's sine table (R41). -/
def refSineFirstHalf : List Int :=
  [0, 804, 1608, 2410, 3212, 4011, 4808, 5602, 6393, 7179, 7962, 8739, 9512, 10278, 11039, 11793] ++
  [12539, 13279, 14010, 14732, 15446, 16151, 16846, 17530, 18204, 18868, 19519, 20159, 20787, 21403, 22005, 22594] ++
  [23170, 23731, 24279, 24811, 25329, 25832, 26319, 26790, 27245, 27683, 28105, 28510, 28898, 29268, 29621, 29956] ++
  [30273, 30571, 30852, 31113, 31356, 31580, 31785, 31971, 32137, 32285, 32412, 32521, 32609, 32678, 32728, 32757] ++
  [32767, 32757, 32728, 32678, 32609, 32521, 32412, 32285, 32137, 31971, 31785, 31580, 31356, 31113, 30852, 30571] ++
  [30273, 29956, 29621, 29268, 28898, 28510, 28105, 27683, 27245, 26790, 26319, 25832, 25329, 24811, 24279, 23731] ++
  [23170, 22594, 22005, 21403, 20787, 20159, 19519, 18868, 18204, 17530, 16846, 16151, 15446, 14732, 14010, 13279] ++
  [12539, 11793, 11039, 10278, 9512, 8739, 7962, 7179, 6393, 5602, 4808, 4011, 3212, 2410, 1608, 804]

/-- REFCFG's `SINE_TABLE`: 256 entries, the second half the negative of the first (R41). -/
def refSineTable : List Sample :=
  (refSineFirstHalf ++ refSineFirstHalf.map fun x => -x).map (BitVec.ofInt 16)

/-- TINYCFG's `SINE_TABLE` (R42). -/
def tinySineTable : List Sample :=
  [0, 23170, 32767, 23170, 0, -23170, -32767, -23170].map (BitVec.ofInt 16)

/-- `MF_PAIR`, rows 0x0 to 0xE (R85). Three rows are MB's (2, KP, ST); the others are the spec's general knowledge G2. -/
def refMfPair : List FreqPair :=
  [⟨1300, 1500⟩, ⟨700, 900⟩, ⟨700, 1100⟩, ⟨900, 1100⟩, ⟨700, 1300⟩, ⟨900, 1300⟩, ⟨1100, 1300⟩, ⟨700, 1500⟩] ++
  [⟨900, 1500⟩, ⟨1100, 1500⟩, ⟨1100, 1700⟩, ⟨1500, 1700⟩, ⟨900, 1700⟩, ⟨1300, 1700⟩, ⟨700, 1700⟩]

/-- `DTMF_PAIR`, rows 0x0 to 0xF (R86), all the spec's general knowledge G3. -/
def refDtmfPair : List FreqPair :=
  [⟨941, 1336⟩, ⟨697, 1209⟩, ⟨697, 1336⟩, ⟨697, 1477⟩, ⟨770, 1209⟩, ⟨770, 1336⟩, ⟨770, 1477⟩, ⟨852, 1209⟩] ++
  [⟨852, 1336⟩, ⟨852, 1477⟩, ⟨941, 1209⟩, ⟨941, 1477⟩, ⟨697, 1633⟩, ⟨770, 1633⟩, ⟨852, 1633⟩, ⟨941, 1633⟩]

/-- R201's six coefficients to 15 decimal places: approximations of algebraic irrationals (log entry 6). -/
def refGzCoeff : Six Q :=
  ⟨1924910472907295 / 1000000000000000, 1876382671844968 / 1000000000000000, 1816286347650163 / 1000000000000000,
   1744992014145594 / 1000000000000000, 1662939224605090 / 1000000000000000, 1570633861761490 / 1000000000000000⟩

/-- REFCFG (R9, R10, R41): the spec's own plausible test configuration, not a claim about the hardware. -/
def refCfg : Cfg where
  tableBits := 8
  sineTable := refSineTable
  blockFrames := 80
  zcThreshold := 256
  maxDigits := 32
  dial := ⟨350, 7336 / 32768, 440, 7336 / 32768⟩
  busy := ⟨480, 2068 / 32768, 620, 2068 / 32768⟩
  busyCadenceMs := 500
  cong := ⟨480, 2068 / 32768, 620, 2068 / 32768⟩
  congCadenceMs := 250
  ring := ⟨440, 3677 / 32768, 480, 3677 / 32768⟩
  ringOnMs := 2000
  ringOffMs := 4000
  mfPair := refMfPair
  mfGain := ⟨14637 / 32768, 14637 / 32768⟩
  mfActiveMs := 68
  mfInactiveMs := 68
  mfKpMs := 100
  mfStMs := 68
  dtmfPair := refDtmfPair
  dtmfGain := ⟨13045 / 32768, 16423 / 32768⟩
  dtmfActiveMs := 50
  dtmfInactiveMs := 50
  adcBits := 12
  adcCenter := 2048
  silenceThreshold := 8
  minKpGateBlockCount := 3
  minDigitBlockCount := 2
  mfInterdigitTimeout := 250
  mfMaxDigits := 32
  emptyAbortCallback := false
  gzCoeff := refGzCoeff
  byteOrder := .little
  numerics := .exact

/-- TINYCFG (R9, R11, R42): the spec's small test configuration. -/
def tinyCfg : Cfg where
  tableBits := 3
  sineTable := tinySineTable
  blockFrames := 8
  zcThreshold := 2000
  maxDigits := 8
  dial := ⟨1000, 1 / 2, 2000, 1 / 4⟩
  busy := ⟨1000, 1 / 2, 0, 0⟩
  busyCadenceMs := 1
  cong := ⟨2000, 1 / 4, 0, 0⟩
  congCadenceMs := 1
  ring := ⟨1000, 1 / 4, 2000, 1 / 4⟩
  ringOnMs := 1
  ringOffMs := 2
  mfPair := refMfPair
  mfGain := ⟨1 / 4, 1 / 4⟩
  mfActiveMs := 1
  mfInactiveMs := 1
  mfKpMs := 2
  mfStMs := 3
  dtmfPair := refDtmfPair
  dtmfGain := ⟨1 / 4, 1 / 4⟩
  dtmfActiveMs := 1
  dtmfInactiveMs := 1
  adcBits := 12
  adcCenter := 2048
  silenceThreshold := 8
  minKpGateBlockCount := 3
  minDigitBlockCount := 2
  mfInterdigitTimeout := 5
  mfMaxDigits := 4
  emptyAbortCallback := false
  gzCoeff := refGzCoeff
  byteOrder := .little
  numerics := .exact

/-! ## Free values: nothing constrains them -/

/-- U4, R251: the draw behind the seize descriptor. The `n`-th successful `MF_SEIZE` gets `draw n + 1`, so every nonzero
32-bit word is possible, two draws may agree, and 0 is impossible (log entry 3). -/
opaque Config.descriptorDraw : Nat → Fin 4294967295

/-- R107, U1: what a 16-bit sample register holds when the exact value does not fit it. The spec defines neither wrap nor
saturation (log entry 4). -/
opaque Config.overflowSample : Int → Sample

/-- R102, D5: what the 16-bit tuning word holds when `nco_tw` does not fit it, possible only under an ill-formed
configuration (log entry 4). -/
opaque Config.overflowTuningWord : Int → Phase

/-- R200, U2: the results of arithmetic number `id`. The spec states no rounding, so nothing is known of them (log entry 8). -/
opaque Config.platformOp : Nat → NumOp → Q → Q → Q

/-- R206, U2: the square root of a positive number in arithmetic number `id` (log entry 8). -/
opaque Config.platformSqrt : Nat → Q → Q

/-- R136: the pair of a digit code that has no table row, possible only outside the reachable states (log entry 5). -/
opaque Config.unlistedPair : FreqPair

/-- A read of the sine table or of no installed buffer, possible only outside the reachable states (log entry 5). -/
opaque Config.unlistedSample : Sample

/-- A read of the outpulsing buffer beyond its end, possible only outside the reachable states (log entry 5). -/
opaque Config.unlistedDigit : DigitCode

/-- The pending digit when none is held, possible only outside the reachable states (log entry 5). -/
opaque Config.unlistedChar : Ascii

end Sys2Proof
end

