-- ==== Sys2Proof/Syntax.lean ====
section
/-! DEFINITION. The commands and hardware events: one constructor per row of spec/opcode_table.json (30_encoding.md R88, R90). -/

namespace Sys2Proof

/-- A command or a hardware event, with its operands in the order of R88's operand column.
Four-bit operands come from the header word, 32-bit operands from the operand words (R89). -/
inductive Instr where
  /-- `TS_SEIZE`: claim the first free channel (R171). -/
  | tsSeize
  /-- `TS_RELEASE id`: give a channel back (R172). -/
  | tsRelease (id : BitVec 4)
  /-- `TS_CPT id, kind`: start a call-progress tone (R173). -/
  | tsCpt (id kind : BitVec 4)
  /-- `TS_SEND_MF id, str, cb`: outpulse a digit string in MF (R174). -/
  | tsSendMf (id : BitVec 4) (str cb : Word32)
  /-- `TS_SEND_DTMF id, str, cb`: outpulse a digit string in DTMF (R175). -/
  | tsSendDtmf (id : BitVec 4) (str cb : Word32)
  /-- `TS_SEND id, buf, len, cb`: play a caller-owned buffer once (R176). -/
  | tsSend (id : BitVec 4) (buf len cb : Word32)
  /-- `TS_SEND_LOOP id, buf, len`: play a caller-owned buffer in a loop (R177). -/
  | tsSendLoop (id : BitVec 4) (buf len : Word32)
  /-- `TS_STOP id`: force the channel to Idle (R178). -/
  | tsStop (id : BitVec 4)
  /-- `TS_REQUEST_BLOCK h`: the outbound buffer-ready event (R179). -/
  | tsRequestBlock (half : BitVec 4)
  /-- `MF_SEIZE cb`: claim the receiver (R251). -/
  | mfSeize (cb : Word32)
  /-- `MF_RELEASE desc`: give the receiver back (R253). -/
  | mfRelease (desc : Word32)
  /-- `MF_HANDLE_BUFFER h`: the inbound frame event (R255). -/
  | mfHandleBuffer (half : BitVec 4)
deriving DecidableEq, Repr, Inhabited

end Sys2Proof
end

