-- ==== Sys2Proof/WellFormed.lean ====
section
/-! DEFINITION. Well-formed instructions: what a decoded word must still satisfy to be admitted (30_encoding.md R91 (c), 20_memory.md R67).
A configuration's well-formedness (R12) is Sys2Proof/Machine/Setup.lean's `Cfg.wellFormed`. -/

namespace Sys2Proof

/-- A half index is 0 (first half) or 1 (second half). R83, R67. -/
def halfOk (h : BitVec 4) : Bool := h == 0 || h == 1

/-- The one admission rule an operand value can break: R91 (c), a half index outside {0, 1} decodes and is then refused.
Every other operand value, a bad channel id or kind or a null handle among them, is a valid command that may fail
with its sentinel (R91 (b)). -/
def Instr.wellFormed : Instr → Bool
  | .tsSeize => true
  | .tsRelease _ => true
  | .tsCpt _ _ => true
  | .tsSendMf _ _ _ => true
  | .tsSendDtmf _ _ _ => true
  | .tsSend _ _ _ _ => true
  | .tsSendLoop _ _ _ => true
  | .tsStop _ => true
  | .tsRequestBlock h => halfOk h
  | .mfSeize _ => true
  | .mfRelease _ => true
  | .mfHandleBuffer h => halfOk h

end Sys2Proof
end

