-- ==== Sys2Proof/Decode.lean ====
section
/-! DEFINITION. Decoding a header word and its operand words, total and rejecting by name, and the encoder
(30_encoding.md R89, R90, R91). -/

namespace Sys2Proof

/-- Why a header and its operand words spell no command (R91 (a), U10). -/
inductive DecodeError where
  /-- `op` is not in R90's table. -/
  | unknownOp
  /-- The `id` field must be 0 for this `op` and is not. -/
  | nonzeroId
  /-- The `arg` field must be 0 for this `op` and is not. -/
  | nonzeroArg
  /-- Fewer operand words than `op` asks for. -/
  | missingOperand
  /-- More operand words than `op` asks for. -/
  | surplusOperand
deriving DecidableEq, Repr, Inhabited

/-- Header field `op`, bits 15 to 8. R89. -/
def opOf (h : Header) : BitVec 8 := h.extractLsb' 8 8

/-- Header field `id`, bits 7 to 4. R89. -/
def idOf (h : Header) : BitVec 4 := h.extractLsb' 4 4

/-- Header field `arg`, bits 3 to 0. R89. -/
def argOf (h : Header) : BitVec 4 := h.extractLsb' 0 4

/-- The number of operand words is a function of `op` alone (R89, R90). -/
def operandCount (op : BitVec 8) : Nat :=
  match op.toNat with
  | 0x04 => 2
  | 0x05 => 2
  | 0x06 => 3
  | 0x07 => 2
  | 0x11 => 1
  | 0x12 => 1
  | _ => 0

/-- A field that must be zero. -/
def mustBeZero {α : Type} (field : BitVec 4) (e : DecodeError) (k : Except DecodeError α) : Except DecodeError α :=
  if field = 0 then k else .error e

/-- Take the next operand word. -/
def nextOperand {α : Type} (ws : List Word32) (k : Word32 → List Word32 → Except DecodeError α) : Except DecodeError α :=
  match ws with
  | [] => .error .missingOperand
  | w :: rest => k w rest

/-- The decoder: the instruction a header and the operand words behind it spell, with the words it did not use. R89, R90. -/
def decode (h : Header) (ws : List Word32) : Except DecodeError (Instr × List Word32) :=
  match (opOf h).toNat with
  | 0x01 => mustBeZero (idOf h) .nonzeroId <| mustBeZero (argOf h) .nonzeroArg <| .ok (.tsSeize, ws)
  | 0x02 => mustBeZero (argOf h) .nonzeroArg <| .ok (.tsRelease (idOf h), ws)
  | 0x03 => .ok (.tsCpt (idOf h) (argOf h), ws)
  | 0x04 => mustBeZero (argOf h) .nonzeroArg <|
      nextOperand ws fun str ws => nextOperand ws fun cb ws => .ok (.tsSendMf (idOf h) str cb, ws)
  | 0x05 => mustBeZero (argOf h) .nonzeroArg <|
      nextOperand ws fun str ws => nextOperand ws fun cb ws => .ok (.tsSendDtmf (idOf h) str cb, ws)
  | 0x06 => mustBeZero (argOf h) .nonzeroArg <|
      nextOperand ws fun buf ws => nextOperand ws fun len ws => nextOperand ws fun cb ws =>
        .ok (.tsSend (idOf h) buf len cb, ws)
  | 0x07 => mustBeZero (argOf h) .nonzeroArg <|
      nextOperand ws fun buf ws => nextOperand ws fun len ws => .ok (.tsSendLoop (idOf h) buf len, ws)
  | 0x08 => mustBeZero (argOf h) .nonzeroArg <| .ok (.tsStop (idOf h), ws)
  | 0x09 => mustBeZero (idOf h) .nonzeroId <| .ok (.tsRequestBlock (argOf h), ws)
  | 0x11 => mustBeZero (idOf h) .nonzeroId <| mustBeZero (argOf h) .nonzeroArg <|
      nextOperand ws fun cb ws => .ok (.mfSeize cb, ws)
  | 0x12 => mustBeZero (idOf h) .nonzeroId <| mustBeZero (argOf h) .nonzeroArg <|
      nextOperand ws fun desc ws => .ok (.mfRelease desc, ws)
  | 0x19 => mustBeZero (idOf h) .nonzeroId <| .ok (.mfHandleBuffer (argOf h), ws)
  | _ => .error .unknownOp

/-- A request on the command port is one header and exactly its operand words (R89). -/
def decodeRequest (h : Header) (ws : List Word32) : Except DecodeError Instr :=
  match decode h ws with
  | .ok (i, []) => .ok i
  | .ok (_, _ :: _) => .error .surplusOperand
  | .error e => .error e

/-- A header word from its three fields (R89). -/
def headerWord (op : BitVec 8) (id arg : BitVec 4) : Header := (op ++ id) ++ arg

/-- The header and operand words of an instruction (R90). -/
def encode : Instr → Header × List Word32
  | .tsSeize => (headerWord 0x01 0 0, [])
  | .tsRelease id => (headerWord 0x02 id 0, [])
  | .tsCpt id kind => (headerWord 0x03 id kind, [])
  | .tsSendMf id str cb => (headerWord 0x04 id 0, [str, cb])
  | .tsSendDtmf id str cb => (headerWord 0x05 id 0, [str, cb])
  | .tsSend id buf len cb => (headerWord 0x06 id 0, [buf, len, cb])
  | .tsSendLoop id buf len => (headerWord 0x07 id 0, [buf, len])
  | .tsStop id => (headerWord 0x08 id 0, [])
  | .tsRequestBlock h => (headerWord 0x09 0 h, [])
  | .mfSeize cb => (headerWord 0x11 0 0, [cb])
  | .mfRelease desc => (headerWord 0x12 0 0, [desc])
  | .mfHandleBuffer h => (headerWord 0x19 0 h, [])

/-- The header of an instruction laid out as one number: bits 15 to 0 of `w`, of which the table gives `nbits`. -/
def tableHeader (nbits w : Nat) : Header := BitVec.ofNat 16 (w % 2 ^ nbits)

/-- The operand words behind it: `n` words of 32 bits, counting on from bit 16; bits at or above `nbits` are 0. -/
def tableOperands (nbits w : Nat) : Nat → List Word32 :=
  go ((w % 2 ^ nbits) / 2 ^ 16)
where
  go (bits : Nat) : Nat → List Word32
    | 0 => []
    | n + 1 => BitVec.ofNat 32 bits :: go (bits / 2 ^ 32) n

/-- The instruction the decoder reads from the instruction whose bits are `w`, numbered as spec/opcode_table.json numbers
them, with the bits above `nbits` 0; the longest instruction has three operand words (R90). -/
def decodeTableWord (nbits w : Nat) : Option Instr :=
  match decode (tableHeader nbits w) (tableOperands nbits w 3) with
  | .ok (i, _) => some i
  | .error _ => none

end Sys2Proof
end

