-- ==== Sys2Proof/Machine/State.lean ====
section
/-! DEFINITION. The machine's state as plain data, the reasons a step can stop, and the state after reset
(10_state.md R20 to R44, 20_memory.md R60 to R65). -/

namespace Sys2Proof.Machine

/-- Why the machine has no next state. -/
inductive Fault where
  /-- U7, R254: an `MF_SEIZE` or `MF_RELEASE` from inside the MF completion callback waits for a lock its own caller
  holds. Raised by those two commands. Safe: the spec gives the case no successor. -/
  | deadlock
  /-- U11, R279: the fatal flag is set and no agent has a step any more. Raised by `step` itself, before any
  instruction. Safe: the spec's fatal state is absorbing. -/
  | fatalHalt
deriving DecidableEq, Repr, Inhabited

/-- Why a step is given no meaning. -/
inductive Refusal where
  /-- An instruction that has no meaning yet; `mnemonic` is the table's. No arm answers with it. Safe. -/
  | notModelled (mnemonic : String)
  /-- U9, R67: a half index outside {0, 1}. Raised by the two events. Safe. -/
  | badHalfIndex
  /-- U10, R91 (a): header and operand words that spell no command. Raised by `step` at decoding. Safe. -/
  | invalidCommand (why : DecodeError)
  /-- U8, R278 (b), D24: a command issued from inside a tone-engine completion callback. Raised by every command. Safe. -/
  | commandInToneCallback
  /-- R19, R281: an agent issues what is not its to issue (an event from task context, a command from a buffer-ready
  signal). Raised by every instruction. Safe. -/
  | wrongContext
  /-- U20, R12: the configuration is ill-formed. Raised by `setup` and by `step` before decoding. Safe. -/
  | illFormedConfig
  /-- U18, R63: a raw ADC sample outside 0 .. `2^ADC_BITS - 1`. Raised by `MF_HANDLE_BUFFER`. Safe. -/
  | adcSampleOutOfRange
deriving DecidableEq, Repr, Inhabited

/-! ## Address spaces -/

/-- One address space: the listed elements of a sparse array of `w`-bit elements, by element index (R60). Canonical form:
indices strictly rising, no entry equal to what an unlisted index reads as (Sys2Proof/Machine/Ops.lean). With `w = 8` this is a
list of `Host.Cell`. -/
abbrev Cells (w : Nat) := List (Nat × BitVec w)

/-! ## Tone Synthesis Engine -/

/-- The channel index, which is the channel id (R21, R83): `left` is channel 0 (even positions), `right` channel 1 (R62). -/
inductive ChanId where
  | left
  | right
deriving DecidableEq, Repr, Inhabited

/-- The 20 states of the channel sequencer (R23). -/
inductive ChState where
  | idle
  | genDialTone
  | genDialToneWait
  | genBusyTone
  | genCongestionTone
  | busyWaitToneEnd
  | busyWaitSilenceEnd
  | genRingingTone
  | ringingWaitToneEnd
  | ringingWaitSilenceEnd
  | sendMf
  | sendMfWaitToneEnd
  | sendMfWaitSilenceEnd
  | sendDtmf
  | sendDtmfWaitToneEnd
  | sendDtmfWaitSilenceEnd
  | sendAudio
  | sendAudioWait
  | sendAudioLoop
  | sendAudioLoopWait
deriving DecidableEq, Repr, Inhabited

/-- One tone component (R26). -/
structure Osc where
  /-- Frequency in Hz; 0 marks the component as silent. -/
  freq : Q
  /-- Linear gain. -/
  gain : Q
  /-- Phase accumulator, modulo 2^16. -/
  phase : Phase
  /-- Tuning word. -/
  tw : Phase
deriving DecidableEq, Repr, Inhabited

/-- ChannelInfo, the per-channel register file (R22). Counters are unbounded naturals, as D4 allows. -/
structure ChannelInfo where
  /-- Ownership flag (R27). -/
  owned : Bool
  /-- Current state of the sequencer. -/
  state : ChState
  /-- Pending digit string, `MAX_DIGITS` encoded digits (R28). -/
  digits : List DigitCode
  /-- Digit-string length. -/
  dlen : Nat
  /-- Digit-string read index. -/
  didx : Nat
  /-- Tone component 0. -/
  tone0 : Osc
  /-- Tone component 1. -/
  tone1 : Osc
  /-- Cadence countdown, in ticks. -/
  timer : Nat
  /-- Cadence reload value, in ticks. -/
  reload : Nat
  /-- Optional completion callback. -/
  cb : Option Handle
  /-- Installed caller-owned sample buffer. -/
  abuf : Option Handle
  /-- Its length in samples. -/
  alen : Nat
  /-- Playback index. -/
  aidx : Nat
deriving DecidableEq, Repr, Inhabited

/-- `TE`, the Tone Synthesis Engine (R21). -/
structure ToneEngine where
  /-- Channel 0. -/
  ch0 : ChannelInfo
  /-- Channel 1. -/
  ch1 : ChannelInfo
  /-- `OUT`, flat: element (h, p) at index `h * 2*BLOCK_FRAMES + p` (R62). -/
  out : Cells 16
deriving DecidableEq, Repr, Inhabited

/-! ## MF Receiver -/

/-- GoertzelData, one detector (R31). -/
structure GoertzelData where
  /-- IIR state register. -/
  q1 : Q
  /-- IIR state register. -/
  q2 : Q
  /-- Recurrence coefficient. -/
  coeff : Q
  /-- The radicand of the last computed power: `power` itself is its square root, in the configuration's arithmetic (R206, R209;
  log entry 7). -/
  power2 : Q
deriving DecidableEq, Repr, Inhabited

/-- The 8 decode states (R33). -/
inductive MfState where
  | idle
  | waitKp
  | kpSilence
  | waitDigit
  | waitDigitSilence
  | timeout
  | done
  | waitRelease
deriving DecidableEq, Repr, Inhabited

/-- `ErrCode` (R271). -/
inductive ErrCode where
  | ok
  | timeout
deriving DecidableEq, Repr, Inhabited

/-- MfData, the decoder record (R32). -/
structure MfData where
  /-- Decode state. -/
  state : MfState
  /-- Interdigit timer, in frames, counting up. -/
  timer : Nat
  /-- Consecutive KP-frame counter. -/
  kpCount : Nat
  /-- Consecutive same-code frame counter. -/
  digCount : Nat
  /-- The code being debounced. -/
  cand : Mask
  /-- The decoded digit awaiting its silence. -/
  pend : Option Ascii
  /-- Accumulated digit buffer, `MF_MAX_DIGITS + 1` characters, NUL at index `ndigits` (D44). -/
  digits : List Ascii
  /-- Digit count. -/
  ndigits : Nat
  /-- `OK` or `TIMEOUT`. -/
  error : ErrCode
  /-- Completion callback. -/
  cb : Option Handle
  /-- Seize descriptor, 0 while free. -/
  desc : Word32
deriving DecidableEq, Repr, Inhabited

/-- `MR`, the MF Receiver (R30). -/
structure Receiver where
  /-- The six detectors. -/
  gz : Six GoertzelData
  /-- The frame buffer of corrected samples (R35). -/
  frame : List Q
  /-- The decoder record. -/
  mf : MfData
  /-- Whether the frame-sampling hardware is started (R36). -/
  samplingOn : Bool
deriving DecidableEq, Repr, Inhabited

/-! ## Model devices and the environment -/

/-- A completion event delivered to the host (R37, R277). -/
inductive Event where
  /-- `TeDone(c, cb)`. -/
  | teDone (c : ChanId) (cb : Handle)
  /-- `MfDone(cb, error, ndigits, digits)` with a copy of the digits. -/
  | mfDone (cb : Option Handle) (error : ErrCode) (ndigits : Nat) (digits : List Ascii)
deriving DecidableEq, Repr, Inhabited

/-- The error kinds of R270. The host never sees them; R271 numbers them for a model's diagnostics. -/
inductive ErrorKind where
  | invalidChannel
  | invalidArgument
  | resourceExhausted
  | protocolTimeout
  | driverFailure
deriving DecidableEq, Repr, Inhabited

/-- What the last command returned to its caller (R14, R92). -/
inductive Ret where
  /-- Events return nothing. -/
  | nothing
  /-- `TS_SEIZE`: a channel id. -/
  | channel (c : ChanId)
  /-- `TS_SEIZE`: `none`. -/
  | noChannel
  /-- A Boolean command. -/
  | bool (b : Bool)
  /-- `MF_SEIZE`: a descriptor, 0 for failure. -/
  | desc (d : Word32)
deriving DecidableEq, Repr, Inhabited

/-- The answer of the frame-sampling driver, agent `A_DRV` (R19, R250). -/
inductive DrvAnswer where
  | ok
  | fail
deriving DecidableEq, Repr, Inhabited

/-- The context an instruction is issued from (R40 (b), R281): the task context of `A_TASK`, the two buffer-ready signals
of `A_OUT` and `A_ADC`, or the inside of a completion callback. -/
inductive Ctx where
  | task
  | outSignal
  | adcSignal
  | toneCallback
  | mfCallback
deriving DecidableEq, Repr, Inhabited

/-- One half of a double buffer (R83). -/
inductive Half where
  | first
  | second
deriving DecidableEq, Repr, Inhabited

/-- A command or event presented to the block, with its issuing context. -/
structure Request where
  ctx : Ctx
  header : Header
  operands : List Word32
deriving DecidableEq, Repr, Inhabited

/-- What an agent of the environment does next (R19, R44). The list of these fixes the order of the agents' steps. -/
inductive Input where
  /-- A command or event on the command port. -/
  | request (r : Request)
  /-- The inbound DMA writes samples into one half of `ADC` (R63). -/
  | adcFill (half : Half) (samples : List Sample)
  /-- The host writes one element of a caller-owned buffer `AUDIO[h]` (R64). -/
  | audioWrite (h : Handle) (i : Nat) (v : Sample)
  /-- The host writes one character of a digit string `STR` (R65). -/
  | strWrite (h : Handle) (i : Nat) (c : Ascii)
  /-- From now on the driver answers these to start and stop requests (R250). -/
  | driver (start stop : DrvAnswer)
deriving DecidableEq, Repr, Inhabited

/-- What the environment supplies to a step (R44): the oracles' contents and the driver's answers. -/
structure Environment where
  /-- `ADC`, flat: element (h, n) at index `h * FRAME_N + n` (R63). -/
  adc : Cells 16
  /-- `AUDIO`: element `i` of buffer `h` at index `h * 2^32 + i` (R64). -/
  audio : Cells 16
  /-- `STR`: character `i` of string `h` at index `h * 2^32 + i` (R65). -/
  str : Cells 8
  /-- What `drv_start()` answers. -/
  drvStart : DrvAnswer
  /-- What `drv_stop()` answers. -/
  drvStop : DrvAnswer
deriving DecidableEq, Repr, Inhabited

/-- The machine (R20): the two engines, the two model devices (`log`, `fatal`), and the model's own fields, which carry the
parameters of the step relation (R44). -/
structure State where
  /-- `CFG`: not the spec's state but the argument of every step (R20, R44); no step writes it. -/
  cfg : Cfg
  /-- `TE`. -/
  te : ToneEngine
  /-- `MR`. -/
  mr : Receiver
  /-- The fatal flag (R36). -/
  fatal : Bool
  /-- The event log, oldest first (R37). -/
  log : List Event
  /-- The environment's oracles and driver answers. -/
  env : Environment
  /-- The context of the instruction being executed. -/
  ctx : Ctx
  /-- The last return value (R14). -/
  ret : Ret
  /-- The error kind behind the last failure, for diagnostics only (R270, R271). -/
  diag : Option ErrorKind
  /-- How many descriptors have been drawn (U4). -/
  draws : Nat
  /-- What the environment does next, first to come first. -/
  inputs : List Input
deriving DecidableEq, Repr, Inhabited

/-! ## Reset (R43, R300) -/

/-- A tone component after `SETUP` (R43). -/
def Osc.reset : Osc := { freq := 0, gain := 0, phase := 0, tw := 0 }

/-- A channel after `SETUP` (R43). -/
def ChannelInfo.reset (cfg : Cfg) : ChannelInfo where
  owned := false
  state := .idle
  digits := List.replicate cfg.maxDigits 0
  dlen := 0
  didx := 0
  tone0 := Osc.reset
  tone1 := Osc.reset
  timer := 0
  reload := 0
  cb := none
  abuf := none
  alen := 0
  aidx := 0

/-- A detector after `SETUP` (R43): the coefficient computed, the rest 0. -/
def GoertzelData.reset (coeff : Q) : GoertzelData := { q1 := 0, q2 := 0, coeff := coeff, power2 := 0 }

/-- The decoder record after `SETUP` (R43). -/
def MfData.reset (cfg : Cfg) : MfData where
  state := .idle
  timer := 0
  kpCount := 0
  digCount := 0
  cand := 0
  pend := none
  digits := List.replicate (cfg.mfMaxDigits + 1) 0
  ndigits := 0
  error := .ok
  cb := none
  desc := 0

/-- The whole machine after a successful `SETUP(cfg)` (R43, R300, R302). The environment's contents are the model's choice
(log entry 9). -/
def State.init (cfg : Cfg) : State where
  cfg := cfg
  te := { ch0 := ChannelInfo.reset cfg, ch1 := ChannelInfo.reset cfg, out := [] }
  mr := { gz := cfg.gzCoeff.map GoertzelData.reset, frame := List.replicate frameN 0, mf := MfData.reset cfg, samplingOn := false }
  fatal := false
  log := []
  env := { adc := [], audio := [], str := [], drvStart := .ok, drvStop := .ok }
  ctx := .task
  ret := .nothing
  diag := none
  draws := 0
  inputs := []

/-- The machine right after reset: `SETUP(REFCFG)` done, nothing on the command port (R43; REFCFG is log entry 1). -/
def State.reset : State := State.init refCfg

end Sys2Proof.Machine
end

