-- ==== Sys2Proof/Machine/Ops.lean ====
section
/-! DEFINITION. Named operations over the address spaces and the state: element access (20_memory.md R60 to R68), field updates,
return values and sentinels (60_exceptions.md R270), completion callbacks (R276), the fatal state (R279), and the contexts
that may issue an instruction (R281). -/

namespace Sys2Proof.Machine

/-! ## Element access -/

/-- What an unlisted element reads as: 0 (R43 for `OUT`; the model's choice for the environment's spaces, log entry 9). -/
def Cells.unlisted (w : Nat) : BitVec w := 0

/-- `MemRead(SPACE[a], 1)`. -/
def Cells.read {w : Nat} : Cells w → Nat → BitVec w
  | [], _ => Cells.unlisted w
  | (b, v) :: rest, a => if b = a then v else Cells.read rest a

/-- Put an entry in its place among rising indices. -/
def Cells.insert {w : Nat} (a : Nat) (v : BitVec w) : Cells w → Cells w
  | [] => [(a, v)]
  | (b, x) :: rest => if a < b then (a, v) :: (b, x) :: rest else (b, x) :: Cells.insert a v rest

/-- Remove the entry of an index. -/
def Cells.erase {w : Nat} (a : Nat) : Cells w → Cells w
  | [] => []
  | (b, x) :: rest => if b = a then Cells.erase a rest else (b, x) :: Cells.erase a rest

/-- `MemWrite(SPACE[a], 1, v)`: writing what an unlisted element reads as removes the entry, so the form stays canonical. -/
def Cells.write {w : Nat} (m : Cells w) (a : Nat) (v : BitVec w) : Cells w :=
  if v = Cells.unlisted w then Cells.erase a m else Cells.insert a v (Cells.erase a m)

/-- Canonical form above a bound: indices rise strictly from `lo`, no listed entry reads as unlisted. -/
def Cells.wfFrom {w : Nat} (lo : Nat) : Cells w → Bool
  | [] => true
  | (b, v) :: rest => decide (lo ≤ b) && decide (v ≠ Cells.unlisted w) && Cells.wfFrom (b + 1) rest

/-- The canonical form of an address space. -/
def Cells.wf {w : Nat} (m : Cells w) : Bool := Cells.wfFrom 0 m

/-- Write consecutive elements from index `a` on. -/
def Cells.writeList {w : Nat} (m : Cells w) (a : Nat) : List (BitVec w) → Cells w
  | [] => m
  | v :: vs => Cells.writeList (Cells.write m a v) (a + 1) vs

/-! ## Where an element lies -/

/-- The number of a half (R83). -/
def Half.index : Half → Nat
  | .first => 0
  | .second => 1

/-- `OUT[h][p]` as a flat index: `h * 2*BLOCK_FRAMES + p` (R62). -/
def outIndex (cfg : Cfg) (h : Half) (p : Nat) : Nat := h.index * (2 * cfg.blockFrames) + p

/-- `ADC[h][n]` as a flat index: `h * FRAME_N + n` (R63). -/
def adcIndex (h : Half) (n : Nat) : Nat := h.index * frameN + n

/-- Element `i` of the space a handle selects (R64, R65): the handles' spaces lie 2^32 elements apart. -/
def handleIndex (h : Handle) (i : Nat) : Nat := h.toNat * 4294967296 + i

/-- `MemRead(AUDIO[h][i], 1)` (R64). With no buffer installed there is no element to read (log entry 5). -/
def readAudio (audio : Cells 16) (h : Option Handle) (i : Nat) : Sample :=
  match h with
  | some h => Cells.read audio (handleIndex h i)
  | none => Config.unlistedSample

/-- The characters of a string before its first NUL, looking at no more than `fuel` of them. -/
def readChars (str : Cells 8) (h : Handle) : Nat → Nat → List Ascii
  | 0, _ => []
  | fuel + 1, i =>
    let c := Cells.read str (handleIndex h i)
    if c = 0 then [] else c :: readChars str h fuel (i + 1)

/-- `STR[h]` up to the first NUL (R65). As many characters as elements are listed are enough: an unlisted one reads NUL. -/
def readStr (str : Cells 8) (h : Handle) : List Ascii := readChars str h str.length 0

/-- The memory of the machine is canonical: all four element spaces are. -/
def State.memWf (s : State) : Bool :=
  Cells.wf s.te.out && Cells.wf s.env.adc && Cells.wf s.env.audio && Cells.wf s.env.str

/-! ## Field updates -/

/-- `te.ch[c]`. -/
def ToneEngine.ch (te : ToneEngine) : ChanId → ChannelInfo
  | .left => te.ch0
  | .right => te.ch1

/-- `te.ch[c] <- v`. -/
def ToneEngine.setCh (te : ToneEngine) : ChanId → ChannelInfo → ToneEngine
  | .left, v => { te with ch0 := v }
  | .right, v => { te with ch1 := v }

/-- `te.ch[c]` of the machine. -/
def State.ch (s : State) (c : ChanId) : ChannelInfo := s.te.ch c

/-- `te.ch[c] <- v`. -/
def State.setCh (s : State) (c : ChanId) (v : ChannelInfo) : State := { s with te := s.te.setCh c v }

/-- `MemWrite(OUT[h][p], 1, v)` (R62). -/
def State.writeOut (s : State) (h : Half) (p : Nat) (v : Sample) : State :=
  { s with te := { s.te with out := Cells.write s.te.out (outIndex s.cfg h p) v } }

/-- `MemRead(OUT[h][p], 1)`: what the outbound DMA reads (R62). -/
def State.readOut (s : State) (h : Half) (p : Nat) : Sample := Cells.read s.te.out (outIndex s.cfg h p)

/-- `MemRead(ADC[h][n], 1)` (R63). -/
def State.readAdc (s : State) (h : Half) (n : Nat) : Sample := Cells.read s.env.adc (adcIndex h n)

/-- `mr <- v`. -/
def State.setMr (s : State) (v : Receiver) : State := { s with mr := v }

/-- `mr.mf <- v`. -/
def State.setMf (s : State) (v : MfData) : State := { s with mr := { s.mr with mf := v } }

/-- `mr.sampling_on <- b`. -/
def State.setSampling (s : State) (b : Bool) : State := { s with mr := { s.mr with samplingOn := b } }

/-! ## Leaving a command: return value, sentinel -/

/-- `return v` of a command or event that went through (R14). -/
def State.respond (s : State) (v : Ret) : State := { s with ret := v, diag := none }

/-- A synchronous error (R270): the sentinel `v` is returned, the kind is kept for diagnostics, nothing else changes (R182). -/
def State.reject (s : State) (v : Ret) (kind : ErrorKind) : State := { s with ret := v, diag := some kind }

/-! ## Taking an exception: the completion callback and the fatal state -/

/-- `emit E`: the completion callback is delivered (R276). Nothing is saved, no mode changes; it returns like a function
(R278), so the event's step goes on. -/
def State.emit (s : State) (e : Event) : State := { s with log := s.log ++ [e] }

/-- `emit` of the event a step may have produced. -/
def State.emitAll (s : State) (es : List Event) : State := { s with log := s.log ++ es }

/-- `raise Fatal(DriverFailure)` (R279): the flag is set and the rest of the rule is abandoned, so the command returns
nothing. From then on no agent has a step (`State.halted`). -/
def raiseFatal (s : State) (kind : ErrorKind) : Host.Outcome State Fault Refusal :=
  .next { s with fatal := true, ret := .nothing, diag := some kind }

/-! ## Who may issue what (R281) -/

/-- A tone-engine command: from task context, or from the MF callback, which the model orders as a task step (R278 (a)). -/
def toneCommand (s : State) (k : Host.Outcome State Fault Refusal) : Host.Outcome State Fault Refusal :=
  match s.ctx with
  | .task => k
  | .mfCallback => k
  | .toneCallback => .refused .commandInToneCallback
  | .outSignal => .refused .wrongContext
  | .adcSignal => .refused .wrongContext

/-- A receiver command: from task context; from the MF callback it deadlocks (R254). -/
def receiverCommand (s : State) (k : Host.Outcome State Fault Refusal) : Host.Outcome State Fault Refusal :=
  match s.ctx with
  | .task => k
  | .mfCallback => .fault .deadlock
  | .toneCallback => .refused .commandInToneCallback
  | .outSignal => .refused .wrongContext
  | .adcSignal => .refused .wrongContext

/-- A hardware event: raised by its own buffer-ready signal only. -/
def hardwareEvent (signal : Ctx) (s : State) (k : Host.Outcome State Fault Refusal) : Host.Outcome State Fault Refusal :=
  if s.ctx = signal then k else .refused .wrongContext

end Sys2Proof.Machine
end

