-- ==== Sys2Proof/Machine/Operands.lean ====
section
/-! DEFINITION. The operand forms: channel id, tone kind, half index, handle, digit string (30_encoding.md R81 to R83;
42_tone_engine.md R170). -/

namespace Sys2Proof.Machine

/-- A handle operand word: 0 is null / none (R89). -/
def handleOf (w : Word32) : Option Handle := if w = 0 then none else some w

/-- A half index operand: 0 or 1, anything else has no meaning (R67, R83). -/
def halfOf (h : BitVec 4) : Option Half :=
  if h = 0 then some .first else if h = 1 then some .second else none

/-- An event's half index, refused outside {0, 1} (R67, R91 (c)). -/
def withHalf (h : BitVec 4) (k : Half → Host.Outcome State Fault Refusal) : Host.Outcome State Fault Refusal :=
  match halfOf h with
  | some half => k half
  | none => .refused .badHalfIndex

/-- The channel an id names, if it is in range (R83). -/
def chanOf (id : BitVec 4) : Option ChanId :=
  if id = 0 then some .left else if id = 1 then some .right else none

/-- `valid_id(id)` (R170): in range and owned. -/
def validId (s : State) (id : BitVec 4) : Option ChanId :=
  match chanOf id with
  | some c => if (s.ch c).owned then some c else none
  | none => none

/-- Every command that takes an id fails with 0 and changes nothing when the id is not valid (R170). -/
def withChannel (s : State) (id : BitVec 4) (k : ChanId → Host.Outcome State Fault Refusal) :
    Host.Outcome State Fault Refusal :=
  match validId s id with
  | some c => k c
  | none => .next (s.reject (.bool false) .invalidChannel)

/-- The head state of a call-progress tone kind (R83, R173): 0 dial, 1 busy, 2 congestion, 3 ringing. -/
def cptHead (kind : BitVec 4) : Option ChState :=
  if kind = 0 then some .genDialTone
  else if kind = 1 then some .genBusyTone
  else if kind = 2 then some .genCongestionTone
  else if kind = 3 then some .genRingingTone
  else none

/-! ## Digit strings -/

/-- The digit table's mode (R82). -/
inductive DigitMode where
  | mf
  | dtmf
deriving DecidableEq, Repr, Inhabited

/-- The 4-bit code of a digit character (R81); only upper-case letters are recognised. -/
def digitCode (c : Ascii) : Option DigitCode :=
  if 0x30#8 ≤ c ∧ c ≤ 0x39#8 then some ((c - 0x30#8).truncate 4)
  else if c = 0x2A#8 then some 0xA
  else if c = 0x23#8 then some 0xB
  else if c = 0x41#8 then some 0xC
  else if c = 0x42#8 then some 0xD
  else if c = 0x43#8 then some 0xE
  else if c = 0x44#8 then some 0xF
  else none

/-- The character of a digit code (R81, read backwards). -/
def digitChar (d : DigitCode) : Ascii :=
  if d ≤ 9#4 then 0x30#8 + d.zeroExtend 8
  else if d = 0xA then 0x2A#8
  else if d = 0xB then 0x23#8
  else 0x41#8 + (d - 0xC#4).zeroExtend 8

/-- One character of `DIGIT_ENCODE` (R82): `'D'` is invalid for MF. -/
def encodeChar (mode : DigitMode) (c : Ascii) : Option DigitCode :=
  match digitCode c with
  | none => none
  | some d => if mode = .mf ∧ d = 0xF then none else some d

/-- The characters of `DIGIT_ENCODE`, all or none (R82). -/
def encodeChars (mode : DigitMode) : List Ascii → Option (List DigitCode)
  | [] => some []
  | c :: cs =>
    match encodeChar mode c, encodeChars mode cs with
    | some d, some ds => some (d :: ds)
    | _, _ => none

/-- `DIGIT_ENCODE(str, mode)` on the characters before the first NUL (R82): the length is tested before the characters. -/
def digitEncode (cfg : Cfg) (mode : DigitMode) (chars : List Ascii) : Option (List DigitCode) :=
  if chars.length > cfg.maxDigits then none else encodeChars mode chars

end Sys2Proof.Machine
end

