-- ==== Sys2Proof/Machine/Flags.lean ====
section
/-! DEFINITION. The numeric codes of states, errors and results (10_state.md R23, R33; 60_exceptions.md R271; 30_encoding.md R92)
and the transient flags: tone-present bits, two-of-six mask, frame class (R38, R84, R207, R208). -/

namespace Sys2Proof.Machine

/-! ## Codes -/

/-- The 5-bit code of a channel state (R23). -/
def ChState.code : ChState → BitVec 5
  | .idle => 0
  | .genDialTone => 1
  | .genDialToneWait => 2
  | .genBusyTone => 3
  | .genCongestionTone => 4
  | .busyWaitToneEnd => 5
  | .busyWaitSilenceEnd => 6
  | .genRingingTone => 7
  | .ringingWaitToneEnd => 8
  | .ringingWaitSilenceEnd => 9
  | .sendMf => 10
  | .sendMfWaitToneEnd => 11
  | .sendMfWaitSilenceEnd => 12
  | .sendDtmf => 13
  | .sendDtmfWaitToneEnd => 14
  | .sendDtmfWaitSilenceEnd => 15
  | .sendAudio => 16
  | .sendAudioWait => 17
  | .sendAudioLoop => 18
  | .sendAudioLoopWait => 19

/-- The 3-bit code of a decode state (R33). -/
def MfState.code : MfState → BitVec 3
  | .idle => 0
  | .waitKp => 1
  | .kpSilence => 2
  | .waitDigit => 3
  | .waitDigitSilence => 4
  | .timeout => 5
  | .done => 6
  | .waitRelease => 7

/-- `OK` = 0, `TIMEOUT` = 1 (R271). -/
def ErrCode.code : ErrCode → Nat
  | .ok => 0
  | .timeout => 1

/-- The diagnostic number of an error kind (R271). -/
def ErrorKind.code : ErrorKind → Nat
  | .invalidChannel => 1
  | .invalidArgument => 2
  | .resourceExhausted => 3
  | .protocolTimeout => 4
  | .driverFailure => 5

/-- The id of a channel (R83). -/
def ChanId.id : ChanId → BitVec 4
  | .left => 0
  | .right => 1

/-- A return value as the host sees it (R92): 4-bit id or 0xF, Boolean 1 or 0, 32-bit descriptor; an event returns nothing. -/
def Ret.word : Ret → Option Word32
  | .nothing => none
  | .channel c => some (c.id.zeroExtend 32)
  | .noChannel => some 0xF
  | .bool true => some 1
  | .bool false => some 0
  | .desc d => some d

/-! ## Transient flags of a frame -/

/-- The frame class (R208). -/
inductive FrameClass where
  | silence
  | valid (mask : Mask)
  | invalid
deriving DecidableEq, Repr, Inhabited

/-- The detector bit of a frequency (R84): `GZ_FREQ[k]` has bit `k`, any other frequency none. -/
def freqBit (f : Q) : Mask :=
  if f = 700 then 0x01
  else if f = 900 then 0x02
  else if f = 1100 then 0x04
  else if f = 1300 then 0x08
  else if f = 1500 then 0x10
  else if f = 1700 then 0x20
  else 0

/-- The two-of-six mask of a frequency pair (R84, R85). -/
def pairMask (p : FreqPair) : Mask := freqBit p.fa ||| freqBit p.fb

/-- `KP_MASK`, 1100 + 1700 Hz (R85, R221). -/
def kpMask : Mask := 0x24

/-- One bit of the mask: bit `k` set when `present`. -/
def maskBit (k : Nat) (present : Bool) : Mask := if present then BitVec.ofNat 6 (2 ^ k) else 0

/-- The mask of the six tone-present flags (R208). -/
def maskOf (present : Six Bool) : Mask :=
  maskBit 0 present.k0 ||| maskBit 1 present.k1 ||| maskBit 2 present.k2 |||
    maskBit 3 present.k3 ||| maskBit 4 present.k4 ||| maskBit 5 present.k5

/-- How many tones are present (R208). -/
def countPresent (present : Six Bool) : Nat :=
  (present.toList.map fun b => if b then 1 else 0).sum

/-- The class of a frame from its six flags (R208). -/
def classOf (present : Six Bool) : FrameClass :=
  if countPresent present = 0 then .silence
  else if countPresent present = 2 then .valid (maskOf present)
  else .invalid

/-- The terminators ST, STP, ST2P, ST3P: `'#'`, `'A'`, `'B'`, `'C'` (R7, R221). -/
def isTerminator (c : Ascii) : Bool := c == 0x23#8 || c == 0x41#8 || c == 0x42#8 || c == 0x43#8

/-- The row of the MF table with this mask, looked for from code `d` on. -/
def mfDecodeFrom (m : Mask) : List FreqPair → DigitCode → Option Ascii
  | [], _ => none
  | p :: ps, d => if pairMask p = m then some (digitChar d) else mfDecodeFrom m ps (d + 1)

/-- `MF_DECODE[m]`, the inverse of `MF_PAIR` (R85, R221). -/
def mfDecode (cfg : Cfg) (m : Mask) : Option Ascii := mfDecodeFrom m cfg.mfPair 0

end Sys2Proof.Machine
end

