-- ==== Sys2Proof/Machine/Decoder.lean ====
section
/-! DEFINITION. The MF digit decoder with debounce, operation `MFD_STEP`, one definition per state rule
(44_mf_decoder.md R220 to R234). -/

namespace Sys2Proof.Machine

/-- `mf_append(c)`: the bounded write, dropped silently when the buffer is full (R223). -/
def mfAppend (cfg : Cfg) (c : Ascii) (mf : MfData) : MfData :=
  if mf.ndigits < cfg.mfMaxDigits then
    { mf with digits := (mf.digits.set mf.ndigits c).set (mf.ndigits + 1) 0, ndigits := mf.ndigits + 1 }
  else mf

/-- `run_timer`: one frame of the interdigit timer (R224). -/
def runTimer (cfg : Cfg) (mf : MfData) : MfData :=
  if cfg.mfInterdigitTimeout ≤ mf.timer + 1 then { mf with timer := mf.timer + 1, state := .timeout }
  else { mf with timer := mf.timer + 1 }

/-- `Idle` (R225). -/
def mfdIdle (mf : MfData) : MfData := mf

/-- `WaitKp` (R226). -/
def mfdWaitKp (cfg : Cfg) (cls : FrameClass) (mf : MfData) : MfData :=
  if cls = .valid kpMask then
    if cfg.minKpGateBlockCount ≤ mf.kpCount + 1 then
      { mfAppend cfg 0x2A mf with kpCount := 0, digCount := 0, cand := 0, timer := 0, state := .kpSilence }
    else { mf with kpCount := mf.kpCount + 1 }
  else { mf with kpCount := 0 }

/-- `KpSilence` (R227). -/
def mfdKpSilence (cfg : Cfg) (cls : FrameClass) (mf : MfData) : MfData :=
  match cls with
  | .silence => { mf with timer := 0, digCount := 0, cand := 0, state := .waitDigit }
  | .valid _ => runTimer cfg mf
  | .invalid => runTimer cfg mf

/-- The debounce of a valid frame: the first of a code, or one more of it (R228). -/
def debounce (m : Mask) (mf : MfData) : MfData :=
  if mf.digCount = 0 ∨ m ≠ mf.cand then { mf with cand := m, digCount := 1 }
  else { mf with digCount := mf.digCount + 1 }

/-- `WaitDigit` (R228). -/
def mfdWaitDigit (cfg : Cfg) (cls : FrameClass) (mf : MfData) : MfData :=
  match cls with
  | .valid m =>
    let mf := debounce m mf
    if cfg.minDigitBlockCount ≤ mf.digCount then
      match mfDecode cfg m with
      | some c => { mf with pend := some c, timer := 0, state := .waitDigitSilence }
      | none => { mf with digCount := 0 }
    else mf
  | .silence => runTimer cfg { mf with digCount := 0 }
  | .invalid => runTimer cfg { mf with digCount := 0 }

/-- The pending digit (R229); a pending digit is always held in `WaitDigitSilence`. -/
def pending (mf : MfData) : Ascii := mf.pend.getD Config.unlistedChar

/-- `WaitDigitSilence` (R229). -/
def mfdWaitDigitSilence (cfg : Cfg) (cls : FrameClass) (mf : MfData) : MfData :=
  match cls with
  | .silence =>
    if isTerminator (pending mf) then { mfAppend cfg (pending mf) mf with state := .done }
    else { mfAppend cfg (pending mf) mf with digCount := 0, cand := 0, timer := 0, state := .waitDigit }
  | .valid _ => runTimer cfg mf
  | .invalid => runTimer cfg mf

/-- `WaitRelease` (R233). -/
def mfdWaitRelease (mf : MfData) : MfData := mf

/-- The rule of the state held at the start of the frame (R220); `Timeout` and `Done` are left to the chaining. -/
def mfdState (cfg : Cfg) (cls : FrameClass) (mf : MfData) : MfData :=
  match mf.state with
  | .idle => mfdIdle mf
  | .waitKp => mfdWaitKp cfg cls mf
  | .kpSilence => mfdKpSilence cfg cls mf
  | .waitDigit => mfdWaitDigit cfg cls mf
  | .waitDigitSilence => mfdWaitDigitSilence cfg cls mf
  | .timeout => mf
  | .done => mf
  | .waitRelease => mfdWaitRelease mf

/-- `Timeout` (R231), transient (R230). -/
def mfdTimeout (mf : MfData) : MfData :=
  if mf.state = .timeout then { mf with error := .timeout, state := .done } else mf

/-- The completion event of `Done`, with a copy of the digits (R232, R277). -/
def doneEvent (mf : MfData) : Event := .mfDone mf.cb mf.error mf.ndigits (mf.digits.take mf.ndigits)

/-- `Done` (R232), transient (R230): the event, then `WaitRelease`. -/
def mfdDone (mf : MfData) : MfData × List Event :=
  if mf.state = .done then ({ mf with state := .waitRelease }, [doneEvent mf]) else (mf, [])

/-- `MFD_STEP(class)`: the state's rule, then the chaining of R230 (R220). -/
def mfdStep (cfg : Cfg) (cls : FrameClass) (mf : MfData) : MfData × List Event :=
  mfdDone (mfdTimeout (mfdState cfg cls mf))

end Sys2Proof.Machine
end

