-- ==== Sys2Proof/Machine/Goertzel.lean ====
section
/-! DEFINITION. The Goertzel filter bank: `GZ_FRAME` and `GZ_CLASSIFY` in the arithmetic `NUMERICS` (43_goertzel.md R200 to R210). -/

namespace Sys2Proof.Machine

/-! ## The number type `Num` (R200)

Every operation of the formulas is one operation of the arithmetic, in the order the rules write them (DESIGN CHOICE, log entry 8).
Comparison, negation of a constant, and so the maximum and minimum, are exact in every arithmetic. -/

/-- `a + b` in the arithmetic. -/
def numAdd (nm : Numerics) (a b : Q) : Q :=
  match nm with
  | .exact => a + b
  | .platform id => Config.platformOp id .add a b

/-- `a - b` in the arithmetic. -/
def numSub (nm : Numerics) (a b : Q) : Q :=
  match nm with
  | .exact => a - b
  | .platform id => Config.platformOp id .sub a b

/-- `a * b` in the arithmetic. -/
def numMul (nm : Numerics) (a b : Q) : Q :=
  match nm with
  | .exact => a * b
  | .platform id => Config.platformOp id .mul a b

/-- `a / b` in the arithmetic. -/
def numDiv (nm : Numerics) (a b : Q) : Q :=
  match nm with
  | .exact => a / b
  | .platform id => Config.platformOp id .div a b

/-- `|a|` in the arithmetic. -/
def numAbs (nm : Numerics) (a : Q) : Q := if 0 ≤ a then a else numSub nm 0 a

/-- The square root of a platform's arithmetic; of a number not above 0 it is 0 (U3). -/
def platformRoot (id : Nat) (a : Q) : Q := if 0 < a then Config.platformSqrt id a else 0

/-! ## The raw frame -/

/-- `n` raw samples of a half from index `i` on (R202). -/
def rawFrom (s : State) (h : Half) : Nat → Nat → List Nat
  | 0, _ => []
  | n + 1, i => (s.readAdc h i).toNat :: rawFrom s h n (i + 1)

/-- The raw frame `ADC[h][0 .. FRAME_N-1]` (R202). -/
def rawFrame (s : State) (h : Half) : List Nat := rawFrom s h frameN 0

/-- A raw sample the oracle may answer: below `2^ADC_BITS` (R63, U18). -/
def rawOk (cfg : Cfg) (x : Nat) : Bool := decide (x < 2 ^ cfg.adcBits)

/-- Step 1: `v = (x - ADC_CENTER) / (-ADC_CENTER)`, which inverts the signal (R203). -/
def normalise (cfg : Cfg) (x : Nat) : Q :=
  numDiv cfg.numerics (numSub cfg.numerics (x : Q) (cfg.adcCenter : Q)) (-(cfg.adcCenter : Q))

/-- The greater of two numbers. -/
def maxQ (a b : Q) : Q := if a ≤ b then b else a

/-- The smaller of two numbers. -/
def minQ (a b : Q) : Q := if a ≤ b then a else b

/-- The frame's own maximum, running from its first sample (R203, D28). -/
def frameMax : List Q → Q
  | [] => 0
  | v :: vs => vs.foldl maxQ v

/-- The frame's own minimum, running from its first sample (R203, D28). -/
def frameMin : List Q → Q
  | [] => 0
  | v :: vs => vs.foldl minQ v

/-- The offset of step 2, as the source writes it: `(1 - vmax) - (1 - |vmin|)` (R204, O1). -/
def dcOffset (nm : Numerics) (vs : List Q) : Q :=
  numSub nm (numSub nm 1 (frameMax vs)) (numSub nm 1 (numAbs nm (frameMin vs)))

/-- Step 2: subtract the offset from every sample (R204). -/
def removeDc (nm : Numerics) (vs : List Q) : List Q := vs.map fun v => numSub nm v (dcOffset nm vs)

/-- The corrected frame of raw samples (R203, R204). -/
def correctedFrame (cfg : Cfg) (raw : List Nat) : List Q := removeDc cfg.numerics (raw.map (normalise cfg))

/-! ## The detectors -/

/-- Step 3: the recurrence `q0 = c q1 - q2 + sample` over the samples, from (q1, q2) (R205). -/
def recur (nm : Numerics) (c : Q) : Q → Q → List Q → Q × Q
  | q1, q2, [] => (q1, q2)
  | q1, q2, x :: xs => recur nm c (numAdd nm (numSub nm (numMul nm c q1) q2) x) q1 xs

/-- Step 4: the radicand of the power, `q1^2 + q2^2 - c q1 q2` (R206, R209). -/
def radicand (nm : Numerics) (c q1 q2 : Q) : Q :=
  numSub nm (numAdd nm (numMul nm q1 q1) (numMul nm q2 q2)) (numMul nm (numMul nm c q1) q2)

/-- One detector over a corrected frame: (q1, q2) start from 0 (R205, R206). -/
def runDetector (nm : Numerics) (frame : List Q) (g : GoertzelData) : GoertzelData :=
  let q := recur nm g.coeff 0 0 frame
  { g with q1 := q.1, q2 := q.2, power2 := radicand nm g.coeff q.1 q.2 }

/-- `GZ_FRAME` on a raw frame: the scratch frame and the six detectors (R202). -/
def gzFrame (cfg : Cfg) (raw : List Nat) (r : Receiver) : Receiver :=
  let frame := correctedFrame cfg raw
  { r with frame := frame, gz := r.gz.map (runDetector cfg.numerics frame) }

/-! ## Classification -/

/-- `present[k]`: the power exceeds the threshold (R207). In exact arithmetic the squares are compared (R209), so no root is taken. -/
def present (cfg : Cfg) (g : GoertzelData) : Bool :=
  match cfg.numerics with
  | .exact => decide (cfg.silenceThreshold * cfg.silenceThreshold < g.power2)
  | .platform id => decide (cfg.silenceThreshold < platformRoot id g.power2)

/-- `GZ_CLASSIFY` (R208). -/
def gzClassify (cfg : Cfg) (gz : Six GoertzelData) : FrameClass := classOf (gz.map (present cfg))

end Sys2Proof.Machine
end

