-- ==== Sys2Proof/Machine/Receive.lean ====
section
/-! DEFINITION. The MF Receiver's commands and the frame event (45_mf_receiver.md R250 to R257). -/

namespace Sys2Proof.Machine

/-- The `n`-th descriptor draw: nonzero, otherwise under no law (R251, U4). -/
def drawDescriptor (n : Nat) : Word32 := BitVec.ofNat 32 ((Config.descriptorDraw n).val + 1)

/-- The decoder record a successful seize leaves (R251). -/
def seizedMf (mf : MfData) (cb : Handle) (desc : Word32) : MfData :=
  { mf with
    timer := 0, kpCount := 0, digCount := 0, cand := 0, pend := none, ndigits := 0, digits := mf.digits.set 0 0,
    error := .ok, cb := some cb, desc := desc, state := .waitKp }

/-- The decoder record a release leaves (R253). -/
def releasedMf (mf : MfData) : MfData := { mf with state := .idle, desc := 0, cb := none }

/-- `MF_SEIZE cb` (R251): both checks come before the driver is asked. -/
def execMfSeize (cb : Word32) (s : State) : Host.Outcome State Fault Refusal :=
  receiverCommand s <|
    if s.mr.mf.state ≠ .idle then .next (s.reject (.desc 0) .resourceExhausted)
    else
      match handleOf cb with
      | none => .next (s.reject (.desc 0) .invalidArgument)
      | some cbH =>
        match s.env.drvStart with
        | .fail => raiseFatal s .driverFailure
        | .ok =>
          .next ((({ s with draws := s.draws + 1 }.setSampling true).setMf
            (seizedMf s.mr.mf cbH (drawDescriptor s.draws))).respond (.desc (drawDescriptor s.draws)))

/-- `MF_RELEASE desc` (R253): descriptor 0 never matches. -/
def execMfRelease (desc : Word32) (s : State) : Host.Outcome State Fault Refusal :=
  receiverCommand s <|
    if desc = 0 ∨ desc ≠ s.mr.mf.desc then .next (s.reject (.bool false) .invalidChannel)
    else
      match s.env.drvStop with
      | .fail => raiseFatal s .driverFailure
      | .ok => .next (((s.setSampling false).setMf (releasedMf s.mr.mf)).respond (.bool true))

/-- One frame: filter bank, classification, decoder (R255). -/
def processFrame (s : State) (raw : List Nat) : State :=
  let mr := gzFrame s.cfg raw s.mr
  let r := mfdStep s.cfg (gzClassify s.cfg mr.gz) s.mr.mf
  (s.setMr { mr with mf := r.1 }).emitAll r.2

/-- `MF_HANDLE_BUFFER h` (R255): nothing is read or written in `Idle` and `WaitRelease`. -/
def execMfHandleBuffer (half : BitVec 4) (s : State) : Host.Outcome State Fault Refusal :=
  hardwareEvent .adcSignal s <| withHalf half fun h =>
    if s.mr.mf.state = .idle ∨ s.mr.mf.state = .waitRelease then .next (s.respond .nothing)
    else if (rawFrame s h).all (rawOk s.cfg) then .next ((processFrame s (rawFrame s h)).respond .nothing)
    else .refused .adcSampleOutOfRange

end Sys2Proof.Machine
end

