-- ==== Sys2Proof/Machine/Nco.lean ====
section
/-! DEFINITION. The numerically controlled oscillator: `nco_tw`, `NCO_SET`, `scale`, `NCO_TICK`, `PAIR_TICK`, `ms2ticks`
(40_nco.md R102 to R107; 41_channel_fsm.md R121, R122). -/

namespace Sys2Proof.Machine

/-- `nco_tw(f)`: round half up of `65536 f / FS_OUT` (R102). -/
def ncoTw (f : Q) : Int := (65536 * f / (fsOut : Q) + 1 / 2).floor

/-- The 16-bit tuning word of a frequency. A well-formed configuration's always fits (R12 (b)); a value that does not is left
free (log entry 4). -/
def tuningWord (f : Q) : Phase :=
  if 0 ≤ ncoTw f ∧ ncoTw f ≤ 65535 then BitVec.ofInt 16 (ncoTw f) else Config.overflowTuningWord (ncoTw f)

/-- `NCO_SET(osc, f, g)`: every field is written (R102). -/
def ncoSet (f g : Q) : Osc := { freq := f, gain := g, phase := 0, tw := tuningWord f }

/-- An exact integer held in a 16-bit sample register. A value that fits is held exactly (R107, R108); what becomes of one
that does not is left free (U1, log entry 4). -/
def hold16 (x : Int) : Sample :=
  if -32768 ≤ x ∧ x ≤ 32767 then BitVec.ofInt 16 x else Config.overflowSample x

/-- `scale(raw, g)`: the exact product truncated toward zero (R104). -/
def scale (raw : Int) (g : Q) : Int :=
  if 0 ≤ raw then ((raw : Q) * g).floor else -(((-raw : Int) : Q) * g).floor

/-- The table index: the top `TABLE_BITS` bits of the phase (R61, R105). -/
def sineIndex (cfg : Cfg) (phase : Phase) : Nat := (phase >>> (16 - cfg.tableBits)).toNat

/-- `MemRead(SINE[i], 1)` (R61). -/
def readSine (cfg : Cfg) (i : Nat) : Sample := cfg.sineTable.getD i Config.unlistedSample

/-- `NCO_TICK(osc)`: the oscillator after the tick, and the sample (R105, R106). -/
def ncoTick (cfg : Cfg) (osc : Osc) : Osc × Sample :=
  if osc.freq = 0 then (osc, 0)
  else
    ({ osc with phase := osc.phase + osc.tw },
      hold16 (scale (readSine cfg (sineIndex cfg osc.phase)).toInt osc.gain))

/-- `PAIR_TICK(c)`: both oscillators advance, the sample is the sum (R107). -/
def pairTick (cfg : Cfg) (ch : ChannelInfo) : ChannelInfo × Sample :=
  ({ ch with tone0 := (ncoTick cfg ch.tone0).1, tone1 := (ncoTick cfg ch.tone1).1 },
    hold16 ((ncoTick cfg ch.tone0).2.toInt + (ncoTick cfg ch.tone1).2.toInt))

/-- `load_pair(ch, f0, g0, f1, g1)` (R121). -/
def loadPair (ch : ChannelInfo) (f0 g0 f1 g1 : Q) : ChannelInfo :=
  { ch with tone0 := ncoSet f0 g0, tone1 := ncoSet f1 g1 }

/-- `ms2ticks(ms)` = `floor(ms * FS_OUT / 1000)` (R122); durations are not negative (R12). -/
def ms2ticks (ms : Q) : Nat := (ms * (fsOut : Q) / 1000).floor.toNat

end Sys2Proof.Machine
end

