-- ==== Sys2Proof/Machine/Channel.lean ====
section
/-! DEFINITION. The channel sequencer, operation `CH_TICK`, one definition per state rule (41_channel_fsm.md R120 to R147). -/

namespace Sys2Proof.Machine

/-- What one tick of a channel gives: the channel after it, its sample, and the completion events it delivered. -/
structure Tick where
  ch : ChannelInfo
  sample : Sample
  events : List Event
deriving DecidableEq, Repr, Inhabited

/-- A tick that emits no event. -/
def tickOf (ch : ChannelInfo) (sample : Sample) : Tick := { ch := ch, sample := sample, events := [] }

/-- `complete(c)`: the completion event, if a callback is stored (R125). -/
def complete (c : ChanId) (ch : ChannelInfo) : List Event :=
  match ch.cb with
  | some h => [.teDone c h]
  | none => []

/-- `tone_end_tick(ch, next_state, next_timer)`: decrement while the timer runs, then wait for the zero-cross band (R123). -/
def toneEndTick (cfg : Cfg) (ch : ChannelInfo) (nextState : ChState) (nextTimer : Nat) : Tick :=
  let r := pairTick cfg ch
  if ch.timer ≠ 0 then tickOf { r.1 with timer := ch.timer - 1 } r.2
  else if r.2.toInt.natAbs ≤ cfg.zcThreshold then tickOf { r.1 with timer := nextTimer, state := nextState } r.2
  else tickOf r.1 r.2

/-- `silence_tick(ch, action)`: decrement while the timer runs, then the state's own transition; the sample is 0 (R124). -/
def silenceTick (ch : ChannelInfo) (action : ChannelInfo → ChannelInfo) : Tick :=
  if ch.timer ≠ 0 then tickOf { ch with timer := ch.timer - 1 } 0 else tickOf (action ch) 0

/-! ## Rest and dial tone -/

/-- R126. -/
def tickIdle (ch : ChannelInfo) : Tick := tickOf ch 0

/-- R127. -/
def tickGenDialTone (cfg : Cfg) (ch : ChannelInfo) : Tick :=
  tickOf { loadPair ch cfg.dial.f0 cfg.dial.g0 cfg.dial.f1 cfg.dial.g1 with state := .genDialToneWait } 0

/-- R128. -/
def tickGenDialToneWait (cfg : Cfg) (ch : ChannelInfo) : Tick := tickOf (pairTick cfg ch).1 (pairTick cfg ch).2

/-! ## Busy and congestion -/

/-- The head of the busy and congestion chains: one duration, kept in `reload` (R129). -/
def busyHead (tone : ToneSpec) (cadenceMs : Q) (ch : ChannelInfo) : Tick :=
  tickOf
    { loadPair ch tone.f0 tone.g0 tone.f1 tone.g1 with
      reload := ms2ticks cadenceMs, timer := ms2ticks cadenceMs, state := .busyWaitToneEnd } 0

/-- R129. -/
def tickGenBusyTone (cfg : Cfg) (ch : ChannelInfo) : Tick := busyHead cfg.busy cfg.busyCadenceMs ch

/-- R130. -/
def tickGenCongestionTone (cfg : Cfg) (ch : ChannelInfo) : Tick := busyHead cfg.cong cfg.congCadenceMs ch

/-- R131. -/
def tickBusyWaitToneEnd (cfg : Cfg) (ch : ChannelInfo) : Tick := toneEndTick cfg ch .busyWaitSilenceEnd ch.reload

/-- R132: the loop goes back to the tone with the timer reloaded and both phases reset. -/
def tickBusyWaitSilenceEnd (ch : ChannelInfo) : Tick :=
  silenceTick ch fun ch =>
    { ch with
      timer := ch.reload, tone0 := { ch.tone0 with phase := 0 }, tone1 := { ch.tone1 with phase := 0 },
      state := .busyWaitToneEnd }

/-! ## Ringing -/

/-- R133. -/
def tickGenRingingTone (cfg : Cfg) (ch : ChannelInfo) : Tick :=
  tickOf
    { loadPair ch cfg.ring.f0 cfg.ring.g0 cfg.ring.f1 cfg.ring.g1 with
      timer := ms2ticks cfg.ringOnMs, state := .ringingWaitToneEnd } 0

/-- R134. -/
def tickRingingWaitToneEnd (cfg : Cfg) (ch : ChannelInfo) : Tick :=
  toneEndTick cfg ch .ringingWaitSilenceEnd (ms2ticks cfg.ringOffMs)

/-- R135. -/
def tickRingingWaitSilenceEnd (ch : ChannelInfo) : Tick :=
  silenceTick ch fun ch => { ch with state := .genRingingTone }

/-! ## Digit outpulsing -/

/-- `MF_PAIR[d]`; codes 0x0 to 0xE have a row (R85). -/
def mfPairOf (cfg : Cfg) (d : DigitCode) : FreqPair := cfg.mfPair.getD d.toNat Config.unlistedPair

/-- `DTMF_PAIR[d]` (R86). -/
def dtmfPairOf (cfg : Cfg) (d : DigitCode) : FreqPair := cfg.dtmfPair.getD d.toNat Config.unlistedPair

/-- The tone time of an MF code in milliseconds: KP, the four terminators, digits (R87, R136). -/
def mfToneMs (cfg : Cfg) (d : DigitCode) : Nat :=
  if d = 0xA then cfg.mfKpMs
  else if d = 0xB ∨ d = 0xC ∨ d = 0xD ∨ d = 0xE then cfg.mfStMs
  else cfg.mfActiveMs

/-- The head of an outpulsing chain, shared by MF and DTMF: empty abort, completion, or the next digit, which `load` turns
into its tone (R136, R139). -/
def sendHead (cfg : Cfg) (c : ChanId) (ch : ChannelInfo) (load : DigitCode → ChannelInfo → ChannelInfo) : Tick :=
  if ch.dlen = 0 then
    { ch := { ch with state := .idle }, sample := 0, events := if cfg.emptyAbortCallback then complete c ch else [] }
  else if ch.dlen ≤ ch.didx then
    { ch := { ch with state := .idle }, sample := 0, events := complete c ch }
  else
    tickOf (load (ch.digits.getD ch.didx Config.unlistedDigit) { ch with didx := ch.didx + 1 }) 0

/-- The tone of an MF digit (R136). -/
def loadMfDigit (cfg : Cfg) (d : DigitCode) (ch : ChannelInfo) : ChannelInfo :=
  { loadPair ch (mfPairOf cfg d).fa cfg.mfGain.g0 (mfPairOf cfg d).fb cfg.mfGain.g1 with
    timer := ms2ticks (mfToneMs cfg d), state := .sendMfWaitToneEnd }

/-- The tone of a DTMF digit (R139). -/
def loadDtmfDigit (cfg : Cfg) (d : DigitCode) (ch : ChannelInfo) : ChannelInfo :=
  { loadPair ch (dtmfPairOf cfg d).fa cfg.dtmfGain.g0 (dtmfPairOf cfg d).fb cfg.dtmfGain.g1 with
    timer := ms2ticks cfg.dtmfActiveMs, state := .sendDtmfWaitToneEnd }

/-- R136. -/
def tickSendMf (cfg : Cfg) (c : ChanId) (ch : ChannelInfo) : Tick := sendHead cfg c ch (loadMfDigit cfg)

/-- R137. -/
def tickSendMfWaitToneEnd (cfg : Cfg) (ch : ChannelInfo) : Tick :=
  toneEndTick cfg ch .sendMfWaitSilenceEnd (ms2ticks cfg.mfInactiveMs)

/-- R138. -/
def tickSendMfWaitSilenceEnd (ch : ChannelInfo) : Tick := silenceTick ch fun ch => { ch with state := .sendMf }

/-- R139. -/
def tickSendDtmf (cfg : Cfg) (c : ChanId) (ch : ChannelInfo) : Tick := sendHead cfg c ch (loadDtmfDigit cfg)

/-- R140. -/
def tickSendDtmfWaitToneEnd (cfg : Cfg) (ch : ChannelInfo) : Tick :=
  toneEndTick cfg ch .sendDtmfWaitSilenceEnd (ms2ticks cfg.dtmfInactiveMs)

/-- R141. -/
def tickSendDtmfWaitSilenceEnd (ch : ChannelInfo) : Tick := silenceTick ch fun ch => { ch with state := .sendDtmf }

/-! ## Raw-sample playback -/

/-- R142. -/
def tickSendAudio (ch : ChannelInfo) : Tick := tickOf { ch with aidx := 0, state := .sendAudioWait } 0

/-- R143: the end test comes before the read. -/
def tickSendAudioWait (audio : Cells 16) (c : ChanId) (ch : ChannelInfo) : Tick :=
  if ch.alen ≤ ch.aidx then
    { ch := { ch with state := .idle }, sample := 0, events := complete c ch }
  else
    tickOf { ch with aidx := ch.aidx + 1 } (readAudio audio ch.abuf ch.aidx)

/-- R144. -/
def tickSendAudioLoop (ch : ChannelInfo) : Tick := tickOf { ch with aidx := 0, state := .sendAudioLoopWait } 0

/-- R145: the index wraps exactly at the length. -/
def tickSendAudioLoopWait (audio : Cells 16) (ch : ChannelInfo) : Tick :=
  tickOf { ch with aidx := if ch.alen ≤ ch.aidx + 1 then 0 else ch.aidx + 1 } (readAudio audio ch.abuf ch.aidx)

/-! ## Dispatch -/

/-- `CH_TICK(c)`: exactly one rule, that of the state held at the start of the tick (R120). -/
def chTick (cfg : Cfg) (audio : Cells 16) (c : ChanId) (ch : ChannelInfo) : Tick :=
  match ch.state with
  | .idle => tickIdle ch
  | .genDialTone => tickGenDialTone cfg ch
  | .genDialToneWait => tickGenDialToneWait cfg ch
  | .genBusyTone => tickGenBusyTone cfg ch
  | .genCongestionTone => tickGenCongestionTone cfg ch
  | .busyWaitToneEnd => tickBusyWaitToneEnd cfg ch
  | .busyWaitSilenceEnd => tickBusyWaitSilenceEnd ch
  | .genRingingTone => tickGenRingingTone cfg ch
  | .ringingWaitToneEnd => tickRingingWaitToneEnd cfg ch
  | .ringingWaitSilenceEnd => tickRingingWaitSilenceEnd ch
  | .sendMf => tickSendMf cfg c ch
  | .sendMfWaitToneEnd => tickSendMfWaitToneEnd cfg ch
  | .sendMfWaitSilenceEnd => tickSendMfWaitSilenceEnd ch
  | .sendDtmf => tickSendDtmf cfg c ch
  | .sendDtmfWaitToneEnd => tickSendDtmfWaitToneEnd cfg ch
  | .sendDtmfWaitSilenceEnd => tickSendDtmfWaitSilenceEnd ch
  | .sendAudio => tickSendAudio ch
  | .sendAudioWait => tickSendAudioWait audio c ch
  | .sendAudioLoop => tickSendAudioLoop ch
  | .sendAudioLoopWait => tickSendAudioLoopWait audio ch

end Sys2Proof.Machine
end

