-- ==== Sys2Proof/Machine/Tone.lean ====
section
/-! DEFINITION. The Tone Synthesis Engine's commands and the `TS_REQUEST_BLOCK` multiplexer (42_tone_engine.md R170 to R182). -/

namespace Sys2Proof.Machine

/-- A channel claimed by `TS_SEIZE` (R171). -/
def claimed (ch : ChannelInfo) : ChannelInfo := { ch with owned := true, state := .idle }

/-- `TS_SEIZE` (R171): the lowest free channel, or `none`. -/
def execTsSeize (s : State) : Host.Outcome State Fault Refusal :=
  toneCommand s <|
    if (s.ch .left).owned = false then
      .next ((s.setCh .left (claimed (s.ch .left))).respond (.channel .left))
    else if (s.ch .right).owned = false then
      .next ((s.setCh .right (claimed (s.ch .right))).respond (.channel .right))
    else .next (s.reject .noChannel .resourceExhausted)

/-- `TS_RELEASE id` (R172). -/
def execTsRelease (id : BitVec 4) (s : State) : Host.Outcome State Fault Refusal :=
  toneCommand s <| withChannel s id fun c =>
    .next ((s.setCh c { s.ch c with state := .idle, owned := false, cb := none }).respond (.bool true))

/-- `TS_CPT id, kind` (R173): only the state is written, from any state. -/
def execTsCpt (id kind : BitVec 4) (s : State) : Host.Outcome State Fault Refusal :=
  toneCommand s <| withChannel s id fun c =>
    match cptHead kind with
    | some head => .next ((s.setCh c { s.ch c with state := head }).respond (.bool true))
    | none => .next (s.reject (.bool false) .invalidArgument)

/-- The channel after a digit string is installed: the codes overwrite a prefix of the buffer (R174). -/
def installDigits (ch : ChannelInfo) (codes : List DigitCode) (cb : Handle) (head : ChState) : ChannelInfo :=
  { ch with
    digits := codes ++ ch.digits.drop codes.length, dlen := codes.length, didx := 0, cb := some cb, state := head }

/-- `TS_SEND_MF` and `TS_SEND_DTMF` (R174, R175): id, then string and callback, then encoding; nothing is written on a
failure. -/
def sendDigits (mode : DigitMode) (head : ChState) (id : BitVec 4) (str cb : Word32) (s : State) :
    Host.Outcome State Fault Refusal :=
  toneCommand s <| withChannel s id fun c =>
    match handleOf str, handleOf cb with
    | some strH, some cbH =>
      match digitEncode s.cfg mode (readStr s.env.str strH) with
      | some codes => .next ((s.setCh c (installDigits (s.ch c) codes cbH head)).respond (.bool true))
      | none => .next (s.reject (.bool false) .invalidArgument)
    | _, _ => .next (s.reject (.bool false) .invalidArgument)

/-- `TS_SEND_MF id, str, cb` (R174). -/
def execTsSendMf (id : BitVec 4) (str cb : Word32) (s : State) : Host.Outcome State Fault Refusal :=
  sendDigits .mf .sendMf id str cb s

/-- `TS_SEND_DTMF id, str, cb` (R175). -/
def execTsSendDtmf (id : BitVec 4) (str cb : Word32) (s : State) : Host.Outcome State Fault Refusal :=
  sendDigits .dtmf .sendDtmf id str cb s

/-- `TS_SEND id, buf, len, cb` (R176): the callback may be none, the length may be 0. -/
def execTsSend (id : BitVec 4) (buf len cb : Word32) (s : State) : Host.Outcome State Fault Refusal :=
  toneCommand s <| withChannel s id fun c =>
    match handleOf buf with
    | some bufH =>
      .next ((s.setCh c
        { s.ch c with abuf := some bufH, alen := len.toNat, cb := handleOf cb, state := .sendAudio }).respond (.bool true))
    | none => .next (s.reject (.bool false) .invalidArgument)

/-- `TS_SEND_LOOP id, buf, len` (R177): a zero length fails. -/
def execTsSendLoop (id : BitVec 4) (buf len : Word32) (s : State) : Host.Outcome State Fault Refusal :=
  toneCommand s <| withChannel s id fun c =>
    match handleOf buf with
    | some bufH =>
      if len = 0 then .next (s.reject (.bool false) .invalidArgument)
      else
        .next ((s.setCh c
          { s.ch c with abuf := some bufH, alen := len.toNat, cb := none, state := .sendAudioLoop }).respond (.bool true))
    | none => .next (s.reject (.bool false) .invalidArgument)

/-- `TS_STOP id` (R178): Idle at once, still owned, no callback. -/
def execTsStop (id : BitVec 4) (s : State) : Host.Outcome State Fault Refusal :=
  toneCommand s <| withChannel s id fun c =>
    .next ((s.setCh c { s.ch c with state := .idle }).respond (.bool true))

/-! ## The multiplexer -/

/-- The channel that owns an interleave position: even left, odd right (R62, R179). -/
def ownerOf (p : Nat) : ChanId := if p % 2 = 0 then .left else .right

/-- One position of a half: the owning channel ticks once and its sample is written there (R179). -/
def tickPosition (h : Half) (p : Nat) (s : State) : State :=
  let t := chTick s.cfg s.env.audio (ownerOf p) (s.ch (ownerOf p))
  ((s.setCh (ownerOf p) t.ch).emitAll t.events).writeOut h p t.sample

/-- `n` positions from `p` on, in increasing order. -/
def fillFrom (h : Half) : Nat → Nat → State → State
  | 0, _, s => s
  | n + 1, p, s => fillFrom h n (p + 1) (tickPosition h p s)

/-- `TS_REQUEST_BLOCK h` (R179): every position of half `h`, each channel ticking once per stereo frame. -/
def execTsRequestBlock (half : BitVec 4) (s : State) : Host.Outcome State Fault Refusal :=
  hardwareEvent .outSignal s <| withHalf half fun h =>
    .next ((fillFrom h (2 * s.cfg.blockFrames) 0 s).respond .nothing)

end Sys2Proof.Machine
end

