-- ==== Sys2Proof/Machine/Dispatch.lean ====
section
/-! DEFINITION. One arm per command and event. -/

namespace Sys2Proof.Machine

def exec (i : Instr) (s : State) : Host.Outcome State Fault Refusal :=
  match i with
  | .tsSeize => Sys2Proof.Machine.execTsSeize s
  | .tsRelease id => Sys2Proof.Machine.execTsRelease id s
  | .tsCpt id kind => Sys2Proof.Machine.execTsCpt id kind s
  | .tsSendMf id str cb => Sys2Proof.Machine.execTsSendMf id str cb s
  | .tsSendDtmf id str cb => Sys2Proof.Machine.execTsSendDtmf id str cb s
  | .tsSend id buf len cb => Sys2Proof.Machine.execTsSend id buf len cb s
  | .tsSendLoop id buf len => Sys2Proof.Machine.execTsSendLoop id buf len s
  | .tsStop id => Sys2Proof.Machine.execTsStop id s
  | .tsRequestBlock half => Sys2Proof.Machine.execTsRequestBlock half s
  | .mfSeize cb => Sys2Proof.Machine.execMfSeize cb s
  | .mfRelease desc => Sys2Proof.Machine.execMfRelease desc s
  | .mfHandleBuffer half => Sys2Proof.Machine.execMfHandleBuffer half s

end Sys2Proof.Machine
end

