-- ==== Sys2Proof/Machine/Port.lean ====
section
/-! DEFINITION. The command port and the environment's own steps: what comes next, and what it does (00_scope.md R19;
10_state.md R40, R44; 20_memory.md R63 to R65; 45_mf_receiver.md R250). -/

namespace Sys2Proof.Machine

/-- The state in which a request's instruction is executed: the request is taken off the port and its context noted. -/
def State.accept (s : State) (r : Request) (rest : List Input) : State := { s with ctx := r.ctx, inputs := rest }

/-- What the port presents when a state is stepped. -/
inductive Fetched where
  /-- Nothing is pending: the block waits (R43, R302). -/
  | waits
  /-- An instruction, and the state to execute it in. -/
  | instr (i : Instr) (s : State)
  /-- Words that spell no command (R91). -/
  | bad (why : DecodeError)
  /-- A step of the environment, done. -/
  | environment (s : State)
deriving DecidableEq, Repr, Inhabited

/-- The inbound DMA writes at most one frame into a half (R63). -/
def adcFill (s : State) (h : Half) (samples : List Sample) : State :=
  { s with env := { s.env with adc := Cells.writeList s.env.adc (adcIndex h 0) (samples.take frameN) } }

/-- The host writes one element of `AUDIO[h]` (R64). -/
def audioWrite (s : State) (h : Handle) (i : Nat) (v : Sample) : State :=
  { s with env := { s.env with audio := Cells.write s.env.audio (handleIndex h i) v } }

/-- The host writes one character of `STR[h]` (R65). -/
def strWrite (s : State) (h : Handle) (i : Nat) (c : Ascii) : State :=
  { s with env := { s.env with str := Cells.write s.env.str (handleIndex h i) c } }

/-- The driver's next answers (R250). -/
def setDriver (s : State) (start stop : DrvAnswer) : State :=
  { s with env := { s.env with drvStart := start, drvStop := stop } }

/-- Take the next input. -/
def fetch (s : State) : Fetched :=
  match s.inputs with
  | [] => .waits
  | .request r :: rest =>
    match decodeRequest r.header r.operands with
    | .ok i => .instr i (s.accept r rest)
    | .error e => .bad e
  | .adcFill h samples :: rest => .environment (adcFill { s with inputs := rest } h samples)
  | .audioWrite h i v :: rest => .environment (audioWrite { s with inputs := rest } h i v)
  | .strWrite h i c :: rest => .environment (strWrite { s with inputs := rest } h i c)
  | .driver start stop :: rest => .environment (setDriver { s with inputs := rest } start stop)

/-- The agent that issues an `op` by itself (R19): the two events come from their signals, everything else from a task. -/
def issuerOf (h : Header) : Ctx :=
  if opOf h = 0x09 then .outSignal else if opOf h = 0x19 then .adcSignal else .task

/-- The request that presents the instruction whose bits are `w`, with exactly its operand words. -/
def tableRequest (nbits w : Nat) : Request where
  ctx := issuerOf (tableHeader nbits w)
  header := tableHeader nbits w
  operands := tableOperands nbits w (operandCount (opOf (tableHeader nbits w)))

end Sys2Proof.Machine
end

