-- ==== Sys2Proof/Machine/Setup.lean ====
section
/-! DEFINITION. A configuration's well-formedness (00_scope.md R12) and the operation `SETUP` (70_reset_and_hazards.md R300). -/

namespace Sys2Proof.Machine

/-- `AMP = max |SINE_TABLE[i]|` (R12 (c)). -/
def Cfg.amp (table : List Sample) : Nat := table.foldl (fun a x => max a x.toInt.natAbs) 0

/-- R12 (a) for the sine table and the buffer sizes. -/
def Cfg.tableOk (cfg : Cfg) : Bool :=
  decide (1 ≤ cfg.tableBits) && decide (cfg.tableBits ≤ 16) && decide (cfg.sineTable.length = 2 ^ cfg.tableBits) &&
    decide (1 ≤ cfg.blockFrames) && decide (1 ≤ cfg.maxDigits)

/-- R12 (a) for the receiver's parameters. Any six rationals are admitted as `GZ_COEFF`, even beyond -2 .. 2: R210 and R12 bound
their distance from R201's formula nowhere, and neither does the model (DESIGN CHOICE, log entry 30). `NUMERICS` is free too. -/
def Cfg.receiverOk (cfg : Cfg) : Bool :=
  decide (1 ≤ cfg.adcBits) && decide (cfg.adcBits ≤ 16) && decide (0 < cfg.adcCenter) &&
    decide (0 ≤ cfg.silenceThreshold) && decide (1 ≤ cfg.minKpGateBlockCount) && decide (1 ≤ cfg.minDigitBlockCount) &&
    decide (1 ≤ cfg.mfInterdigitTimeout) && decide (1 ≤ cfg.mfMaxDigits)

/-- R12 (a) for the cadence durations, which may be any rational not below 0. -/
def Cfg.durationsOk (cfg : Cfg) : Bool :=
  decide (0 ≤ cfg.busyCadenceMs) && decide (0 ≤ cfg.congCadenceMs) && decide (0 ≤ cfg.ringOnMs) &&
    decide (0 ≤ cfg.ringOffMs)

/-- R12 (a), (b) for one frequency: not negative, and its tuning word fits 16 bits. -/
def freqOk (f : Q) : Bool := decide (0 ≤ f) && decide (ncoTw f ≤ 65535)

/-- R12 (c) for one pair of gains: the two scaled samples cannot sum beyond 16 bits. -/
def gainsOk (amp : Nat) (g0 g1 : Q) : Bool :=
  decide (0 ≤ g0) && decide (0 ≤ g1) && decide (((amp : Q) * g0).floor + ((amp : Q) * g1).floor ≤ 32767)

/-- R12 (a) to (c) for one call-progress tone. -/
def toneOk (amp : Nat) (t : ToneSpec) : Bool := freqOk t.f0 && freqOk t.f1 && gainsOk amp t.g0 t.g1

/-- No two entries are equal. -/
def allDistinct : List Mask → Bool
  | [] => true
  | m :: ms => ms.all (fun x => x != m) && allDistinct ms

/-- R12 (a) to (c) for the tone plan and both pair tables. -/
def Cfg.tonesOk (cfg : Cfg) : Bool :=
  let amp := Cfg.amp cfg.sineTable
  toneOk amp cfg.dial && toneOk amp cfg.busy && toneOk amp cfg.cong && toneOk amp cfg.ring &&
    gainsOk amp cfg.mfGain.g0 cfg.mfGain.g1 && gainsOk amp cfg.dtmfGain.g0 cfg.dtmfGain.g1 &&
    cfg.mfPair.all (fun p => freqOk p.fa && freqOk p.fb) && decide (cfg.dtmfPair.length = 16) &&
    cfg.dtmfPair.all (fun p => freqOk p.fa && freqOk p.fb)

/-- R12 (d): 15 rows, each of two distinct detector frequencies, with 15 distinct masks. -/
def Cfg.mfPairOk (cfg : Cfg) : Bool :=
  decide (cfg.mfPair.length = 15) &&
    cfg.mfPair.all (fun p => freqBit p.fa != 0 && freqBit p.fb != 0 && freqBit p.fa != freqBit p.fb) &&
    allDistinct (cfg.mfPair.map pairMask)

/-- A well-formed configuration (R12); the model gives no meaning to any other. -/
def Cfg.wellFormed (cfg : Cfg) : Bool :=
  Cfg.tableOk cfg && Cfg.receiverOk cfg && Cfg.durationsOk cfg && Cfg.tonesOk cfg && Cfg.mfPairOk cfg

/-- `SETUP(CFG)` (R300), with the answer of `drv_init()`: refused for an ill-formed configuration, fatal on a driver
failure. -/
def setup (cfg : Cfg) (drvInit : DrvAnswer) : Host.Outcome State Fault Refusal :=
  if Cfg.wellFormed cfg then
    match drvInit with
    | .ok => .next (State.init cfg)
    | .fail => raiseFatal (State.init cfg) .driverFailure
  else .refused .illFormedConfig

end Sys2Proof.Machine
end

