-- ==== Sys2Proof/Machine/Step.lean ====
section
/-! DEFINITION. One step of the machine: take the next input and do it (00_scope.md R15, R19; 60_exceptions.md R279). -/

namespace Sys2Proof.Machine

/-- One atomic step (R15). After Fatal no agent has a step (R279); an ill-formed configuration has no meaning (R12); with
nothing pending the block waits. -/
def step (s : State) : Host.Outcome State Fault Refusal :=
  if s.fatal then .fault .fatalHalt
  else if Cfg.wellFormed s.cfg then
    match fetch s with
    | .waits => .next s
    | .instr i s' => exec i s'
    | .bad why => .refused (.invalidCommand why)
    | .environment s' => .next s'
  else .refused .illFormedConfig

/-- `s` with the instruction whose bits are `w` presented first on the command port, by the agent that issues it. -/
def State.withFetchWord (s : State) (nbits w : Nat) : State :=
  { s with inputs := .request (tableRequest nbits w) :: s.inputs }

end Sys2Proof.Machine
end

