-- ==== Sys2Proof/Safety.lean ====
section
/-! DEFINITION. The terms claims are written in: what an instruction returns, runs of ticks and of frames, the invariants of the
machine (10_state.md R25, R34; 44_mf_decoder.md R230, R238), and the real numbers the spec's receiver is defined over (R200, R201,
R206). The machine uses nothing of this file. -/

namespace Sys2Proof.Machine

/-! ## Outcomes of an instruction -/

/-- A tone-engine command is admitted: it comes from task context, or from the MF callback (R278 (a), R281). -/
def mayCommand (s : State) : Prop := s.ctx = .task ∨ s.ctx = .mfCallback

/-- `id` names no owned channel: `valid_id(id)` is false (R170). -/
def notOwned (s : State) (id : BitVec 4) : Prop := ∀ c : ChanId, c.id = id → (s.te.ch c).owned = false

/-- The instruction completes, returns `v`, and leaves `t`: every field of the next state is that of `t` but the return value and
the model's diagnostic kind (log entry 17). -/
def Returns (i : Instr) (s : State) (v : Ret) (t : State) : Prop :=
  ∃ d, exec i s = .next { t with ret := v, diag := d }

/-- The machine may take a step at all: no Fatal has happened and the configuration is well-formed (R279, R12). -/
def running (s : State) : Prop := s.fatal = false ∧ Cfg.wellFormed s.cfg = true

/-- The instruction belongs to the Tone Synthesis Engine (R90: `op[7:4]` = 0). -/
def isTone : Instr → Bool
  | .tsSeize => true
  | .tsRelease _ => true
  | .tsCpt _ _ => true
  | .tsSendMf _ _ _ => true
  | .tsSendDtmf _ _ _ => true
  | .tsSend _ _ _ _ => true
  | .tsSendLoop _ _ _ => true
  | .tsStop _ => true
  | .tsRequestBlock _ => true
  | .mfSeize _ => false
  | .mfRelease _ => false
  | .mfHandleBuffer _ => false

/-- The instruction is a hardware event, not a command (R2). -/
def isEvent : Instr → Bool
  | .tsSeize => false
  | .tsRelease _ => false
  | .tsCpt _ _ => false
  | .tsSendMf _ _ _ => false
  | .tsSendDtmf _ _ _ => false
  | .tsSend _ _ _ _ => false
  | .tsSendLoop _ _ _ => false
  | .tsStop _ => false
  | .tsRequestBlock _ => true
  | .mfSeize _ => false
  | .mfRelease _ => false
  | .mfHandleBuffer _ => true

/-- An instruction issued from a context. -/
def execFrom (ctx : Ctx) (i : Instr) (s : State) : Host.Outcome State Fault Refusal := exec i { s with ctx := ctx }

/-! ## Runs of one channel's ticks -/

/-- A channel after `n` ticks with no command in between. -/
def chanAfter (cfg : Cfg) (audio : Cells 16) (c : ChanId) : Nat → ChannelInfo → ChannelInfo
  | 0, ch => ch
  | n + 1, ch => chanAfter cfg audio c n (chTick cfg audio c ch).ch

/-- The sample of tick number `n`, counted from 0. -/
def sampleAt (cfg : Cfg) (audio : Cells 16) (c : ChanId) (n : Nat) (ch : ChannelInfo) : Sample :=
  (chTick cfg audio c (chanAfter cfg audio c n ch)).sample

/-- The events of tick number `n`. -/
def eventsAt (cfg : Cfg) (audio : Cells 16) (c : ChanId) (n : Nat) (ch : ChannelInfo) : List Event :=
  (chTick cfg audio c (chanAfter cfg audio c n ch)).events

/-- The events of the first `n` ticks. -/
def eventsWithin (cfg : Cfg) (audio : Cells 16) (c : ChanId) (n : Nat) (ch : ChannelInfo) : List Event :=
  (List.range n).flatMap fun k => eventsAt cfg audio c k ch

/-- The events of one `TS_REQUEST_BLOCK` in position order: in each stereo frame the left channel's first (R275 (d)). -/
def blockEvents (cfg : Cfg) (audio : Cells 16) (n : Nat) (te : ToneEngine) : List Event :=
  (List.range n).flatMap fun k => eventsAt cfg audio .left k te.ch0 ++ eventsAt cfg audio .right k te.ch1

/-- An oscillator after `n` ticks. -/
def oscAfter (cfg : Cfg) : Nat → Osc → Osc
  | 0, o => o
  | n + 1, o => oscAfter cfg n (ncoTick cfg o).1

/-- What an oscillator contributes in exact integers (R105, R106). -/
def exactSample (cfg : Cfg) (o : Osc) : Int :=
  if o.freq = 0 then 0 else scale (readSine cfg (sineIndex cfg o.phase)).toInt o.gain

/-- A channel with both phases at 0. -/
def rewound (ch : ChannelInfo) : ChannelInfo :=
  { ch with tone0 := { ch.tone0 with phase := 0 }, tone1 := { ch.tone1 with phase := 0 } }

/-- An oscillator that has advanced `n` times since its phase was 0, or is silent (R106). -/
def advanced (n : Nat) (o : Osc) : Prop := o.freq = 0 ∨ o.phase = BitVec.ofNat 16 (n * o.tw.toNat)

/-- The silence state that follows a tone-end state and the timer it is entered with (R131, R134, R137, R140). -/
def toneEnd (cfg : Cfg) (ch : ChannelInfo) : Option (ChState × Nat) :=
  match ch.state with
  | .busyWaitToneEnd => some (.busyWaitSilenceEnd, ch.reload)
  | .ringingWaitToneEnd => some (.ringingWaitSilenceEnd, ms2ticks cfg.ringOffMs)
  | .sendMfWaitToneEnd => some (.sendMfWaitSilenceEnd, ms2ticks cfg.mfInactiveMs)
  | .sendDtmfWaitToneEnd => some (.sendDtmfWaitSilenceEnd, ms2ticks cfg.dtmfInactiveMs)
  | _ => none

/-- The state that follows a silence state (R132, R135, R138, R141). -/
def silenceEnd (st : ChState) : Option ChState :=
  match st with
  | .busyWaitSilenceEnd => some .busyWaitToneEnd
  | .ringingWaitSilenceEnd => some .genRingingTone
  | .sendMfWaitSilenceEnd => some .sendMf
  | .sendDtmfWaitSilenceEnd => some .sendDtmf
  | _ => none

/-! ## Runs of frames -/

/-- The decoder after a list of frame classes, and the events it delivered. -/
def feed (cfg : Cfg) : List FrameClass → MfData → MfData × List Event
  | [], mf => (mf, [])
  | c :: cs, mf =>
    ((feed cfg cs (mfdStep cfg c mf).1).1, (mfdStep cfg c mf).2 ++ (feed cfg cs (mfdStep cfg c mf).1).2)

/-- The decoder is in none of its transient states (R230). -/
def settled (mf : MfData) : Prop := mf.state ≠ .timeout ∧ mf.state ≠ .done

/-- A frame on which `WaitDigit`'s interdigit timer runs (R222, R228). -/
def notValid (c : FrameClass) : Prop := c = .silence ∨ c = .invalid

/-- The receiver is receiving: seized, and its callback not delivered yet. -/
def receiving (mf : MfData) : Prop :=
  mf.state = .waitKp ∨ mf.state = .kpSilence ∨ mf.state = .waitDigit ∨ mf.state = .waitDigitSilence

/-! ## Invariants -/

/-- What every rule keeps of a channel (R25, R26, R136, R145), under a well-formed configuration. -/
structure ChanInv (cfg : Cfg) (ch : ChannelInfo) : Prop where
  /-- A channel that is not owned is Idle. R25. -/
  free_idle : ch.owned = false → ch.state = .idle
  /-- "digit-string index never exceeds digit-string length". R25. -/
  didx_le : ch.didx ≤ ch.dlen
  /-- R25. -/
  dlen_le : ch.dlen ≤ cfg.maxDigits
  /-- The digit buffer has `MAX_DIGITS` elements. R22. -/
  buffer : ch.digits.length = cfg.maxDigits
  /-- The tuning words are functions of the frequencies. R26. -/
  tw0 : ch.tone0.tw = tuningWord ch.tone0.freq
  /-- R26. -/
  tw1 : ch.tone1.tw = tuningWord ch.tone1.freq
  /-- The loaded gains are those of a well-formed configuration, so no sum overflows. R12 (c), R107. -/
  gains : gainsOk (Cfg.amp cfg.sineTable) ch.tone0.gain ch.tone1.gain = true
  /-- An MF string holds no code 0xF. R136. -/
  mf_codes : ch.state = .sendMf ∨ ch.state = .sendMfWaitToneEnd ∨ ch.state = .sendMfWaitSilenceEnd →
    ∀ i, i < ch.dlen → ch.digits.getD i 0 ≠ 0xF
  /-- Outpulsing always has its callback. R136. -/
  callback : ch.state = .sendMf ∨ ch.state = .sendMfWaitToneEnd ∨ ch.state = .sendMfWaitSilenceEnd ∨
    ch.state = .sendDtmf ∨ ch.state = .sendDtmfWaitToneEnd ∨ ch.state = .sendDtmfWaitSilenceEnd → ch.cb ≠ none
  /-- Playback always has its buffer. R142 to R145. -/
  installed : ch.state = .sendAudio ∨ ch.state = .sendAudioWait ∨ ch.state = .sendAudioLoop ∨
    ch.state = .sendAudioLoopWait → ch.abuf ≠ none
  /-- A looped buffer is not empty. R145, R177. -/
  loop_len : ch.state = .sendAudioLoop ∨ ch.state = .sendAudioLoopWait → 1 ≤ ch.alen
  /-- No element beyond the buffer's end is read. R143. -/
  play_idx : ch.state = .sendAudioWait → ch.aidx ≤ ch.alen
  /-- R145. -/
  loop_idx : ch.state = .sendAudioLoopWait → ch.aidx < ch.alen

/-- What every rule keeps of the decoder record (R34, R230, R238). -/
structure MfInv (cfg : Cfg) (mf : MfData) : Prop where
  /-- The descriptor is nonzero exactly while seized. R34. -/
  desc_iff : mf.desc ≠ 0 ↔ mf.state ≠ .idle
  /-- `Timeout` and `Done` are never observed between events. R230. -/
  settled : settled mf
  /-- R34. -/
  ndigits_le : mf.ndigits ≤ cfg.mfMaxDigits
  /-- D44. -/
  buffer : mf.digits.length = cfg.mfMaxDigits + 1
  /-- The string is always null-terminated. R34. -/
  terminated : mf.digits[mf.ndigits]? = some 0
  /-- Before KP nothing is in the buffer. R226. -/
  empty_before_kp : mf.state = .waitKp → mf.ndigits = 0
  /-- After KP the buffer is not empty. R226. -/
  nonempty_after_kp : mf.state = .kpSilence ∨ mf.state = .waitDigit ∨ mf.state = .waitDigitSilence ∨
    mf.state = .waitRelease → 1 ≤ mf.ndigits
  /-- A non-empty buffer starts with KP. R238. -/
  kp_first : 1 ≤ mf.ndigits → mf.digits[0]? = some 0x2A
  /-- Every later element is in `MF_DECODE`'s range. R238. -/
  in_range : ∀ i, 1 ≤ i → i < mf.ndigits → ∃ m, mfDecode cfg m = mf.digits[i]?
  /-- At most the last element is a terminator. R238. -/
  last_terminator : ∀ i, i + 1 < mf.ndigits → isTerminator (mf.digits.getD i 0) = false
  /-- While receiving, no terminator has been appended. R229. -/
  no_terminator : receiving mf → ∀ i, i < mf.ndigits → isTerminator (mf.digits.getD i 0) = false
  /-- A digit is pending in `WaitDigitSilence`. R228. -/
  pending : mf.state = .waitDigitSilence → ∃ m c, mf.pend = some c ∧ mfDecode cfg m = some c
  /-- The interdigit timer has not run out. R224. -/
  timer_lt : mf.state = .kpSilence ∨ mf.state = .waitDigit ∨ mf.state = .waitDigitSilence →
    mf.timer < cfg.mfInterdigitTimeout
  /-- R226. -/
  kp_lt : mf.state = .waitKp → mf.kpCount < cfg.minKpGateBlockCount
  /-- R228. -/
  dig_lt : mf.state = .waitDigit → mf.digCount < cfg.minDigitBlockCount
  /-- A seized receiver has its callback. R232. -/
  callback : mf.state ≠ .idle → mf.cb ≠ none

/-- The invariant of the machine. -/
structure State.Inv (s : State) : Prop where
  /-- R12. -/
  cfg : Cfg.wellFormed s.cfg = true
  left : ChanInv s.cfg s.te.ch0
  right : ChanInv s.cfg s.te.ch1
  mf : MfInv s.cfg s.mr.mf
  /-- Sampling runs exactly while the receiver is seized. R36, R286. -/
  sampling : s.mr.samplingOn = true ↔ s.mr.mf.state ≠ .idle
  /-- The coefficients are constant after `SETUP`. R31. -/
  coeffs : s.mr.gz.map (fun g => g.coeff) = s.cfg.gzCoeff
  /-- R30. -/
  frame : s.mr.frame.length = frameN
  /-- Every address space is in canonical form. -/
  mem : s.memWf = true

/-! ## The reals the receiver and the gains are defined over -/

/-- `power`, the magnitude of R206, of a detector that keeps its radicand: the real square root in exact arithmetic, the
platform's own root in a platform's. -/
noncomputable def powerOf (nm : Numerics) (g : GoertzelData) : ℝ :=
  match nm with
  | .exact => Real.sqrt (g.power2 : ℝ)
  | .platform id => ((platformRoot id g.power2 : Q) : ℝ)

/-- `gain_of_db(dB) = 10^(dB/20)` (R103), evaluated when a configuration is built and never by the machine. -/
noncomputable def gainOfDb (dB : ℝ) : ℝ := (10 : ℝ) ^ (dB / 20)

/-- The exact coefficient `2 cos(2 pi f / FS_ADC)` of R201, which `GZ_COEFF` approximates. -/
noncomputable def exactCoeff (f : ℝ) : ℝ := 2 * Real.cos (2 * Real.pi * f / (fsAdc : ℝ))

end Sys2Proof.Machine
end

