-- ==== Sys2Proof/Certificates/Slice0/Obligations.lean ====
section
/-! DEFINITION. The statements for the provers. Each docstring names the rule of spec/ it formalises. `Returns i s v t` says that `i`
completes at `s`, returns `v`, and leaves exactly `t` but for the return value and the model's diagnostic field: it is a result
statement, a frame and a completion in one. -/

open Sys2Proof Sys2Proof.Machine

/-! ## Encoding and fetch -/

/-- R89, R90: every instruction's words decode to it again, whatever words follow. -/
def Obligations.DecodeOfEncodeIsTheInstruction : Prop :=
  ∀ (i : Instr) (ws : List Word32), decode (encode i).1 ((encode i).2 ++ ws) = .ok (i, ws)

/-- R89 to R91: a header and words that decode are exactly the encoding of what they decode to, so each word has one meaning. -/
def Obligations.DecodedWordsAreTheEncoding : Prop :=
  ∀ (h : Header) (ws rest : List Word32) (i : Instr),
    decode h ws = .ok (i, rest) → h = (encode i).1 ∧ ws = (encode i).2 ++ rest

/-- R90, V21: a few header words written out from the table decode to their commands, and words that spell none do not. -/
def Obligations.HeaderWordsOfTheTableDecode : Prop :=
  decodeRequest 0x0100 [] = .ok .tsSeize ∧ decodeRequest 0x0210 [] = .ok (.tsRelease 1) ∧
  decodeRequest 0x0313 [] = .ok (.tsCpt 1 3) ∧
  decodeRequest 0x0400 [0x20003010, 0xA001] = .ok (.tsSendMf 0 0x20003010 0xA001) ∧
  decodeRequest 0x0510 [0x20003010, 0xB001] = .ok (.tsSendDtmf 1 0x20003010 0xB001) ∧
  decodeRequest 0x0610 [0x20001000, 3, 0] = .ok (.tsSend 1 0x20001000 3 0) ∧
  decodeRequest 0x0710 [0x20002000, 3] = .ok (.tsSendLoop 1 0x20002000 3) ∧
  decodeRequest 0x0800 [] = .ok (.tsStop 0) ∧ decodeRequest 0x0901 [] = .ok (.tsRequestBlock 1) ∧
  decodeRequest 0x1100 [0xC001] = .ok (.mfSeize 0xC001) ∧ decodeRequest 0x1200 [7] = .ok (.mfRelease 7) ∧
  decodeRequest 0x1901 [] = .ok (.mfHandleBuffer 1) ∧
  decodeRequest 0x0211 [] = .error .nonzeroArg ∧ decodeRequest 0x0912 [] = .error .nonzeroId ∧
  decodeRequest 0x0A00 [] = .error .unknownOp

/-- R91 (a), U10: a header whose `op` is not in R90's table, or whose must-be-zero field is nonzero, has no meaning: a running
machine refuses the step, whatever operand words come with it. -/
def Obligations.ReservedHeadersAreRefused : Prop :=
  ∀ (s : State) (r : Request) (rest : List Input),
    running s → s.inputs = .request r :: rest →
    ((opOf r.header ∉ [0x01#8, 0x02#8, 0x03#8, 0x04#8, 0x05#8, 0x06#8, 0x07#8, 0x08#8, 0x09#8, 0x11#8, 0x12#8, 0x19#8]) ∨
      (opOf r.header ∈ [0x01#8, 0x09#8, 0x11#8, 0x12#8, 0x19#8] ∧ idOf r.header ≠ 0) ∨
      (opOf r.header ∈ [0x01#8, 0x02#8, 0x04#8, 0x05#8, 0x06#8, 0x07#8, 0x08#8, 0x11#8, 0x12#8] ∧ argOf r.header ≠ 0)) →
    ∃ why, step s = .refused (.invalidCommand why)

/-- A step runs the decoded instruction: when the request first on the port decodes to `i`, the step is `exec i` at the same
state with the request taken off the port and its context noted. The port is the model's (log entry 2). -/
def Obligations.StepRunsTheDecodedInstruction : Prop :=
  ∀ (s : State) (r : Request) (rest : List Input) (i : Instr),
    running s → s.inputs = .request r :: rest → decodeRequest r.header r.operands = .ok i →
    step s = exec i { s with ctx := r.ctx, inputs := rest }

/-! ## Tone-engine commands -/

/-- R171: the lowest free channel is claimed and set to Idle; with none free `none` is returned. Nothing else changes. -/
def Obligations.SeizeClaimsTheLowestFreeChannel : Prop :=
  opOf (encode .tsSeize).1 = 0x01 ∧
  ∀ s : State, mayCommand s →
    (s.te.ch0.owned = false →
      Returns .tsSeize s (.channel .left)
        { s with te := { s.te with ch0 := { s.te.ch0 with owned := true, state := .idle } } }) ∧
    (s.te.ch0.owned = true → s.te.ch1.owned = false →
      Returns .tsSeize s (.channel .right)
        { s with te := { s.te with ch1 := { s.te.ch1 with owned := true, state := .idle } } }) ∧
    (s.te.ch0.owned = true → s.te.ch1.owned = true → Returns .tsSeize s .noChannel s)

/-- R172: an owned channel becomes Idle and free and loses its callback, everything else stays; a bad id returns 0 and changes
nothing. -/
def Obligations.ReleaseFreesTheChannel : Prop :=
  (∀ id, opOf (encode (.tsRelease id)).1 = 0x02) ∧
  ∀ s : State, mayCommand s →
    (∀ c : ChanId, (s.te.ch c).owned = true →
      Returns (.tsRelease c.id) s (.bool true)
        { s with te := s.te.setCh c { s.te.ch c with state := .idle, owned := false, cb := none } }) ∧
    (∀ id, notOwned s id → Returns (.tsRelease id) s (.bool false) s)

/-- R173: the head state of kind 0, 1, 2, 3 is set from any state and nothing else is written; a bad id or kind returns 0 and
changes nothing. -/
def Obligations.CptSetsTheHeadState : Prop :=
  (∀ id kind, opOf (encode (.tsCpt id kind)).1 = 0x03) ∧
  ∀ s : State, mayCommand s →
    (∀ c : ChanId, (s.te.ch c).owned = true →
      Returns (.tsCpt c.id 0) s (.bool true) { s with te := s.te.setCh c { s.te.ch c with state := .genDialTone } } ∧
      Returns (.tsCpt c.id 1) s (.bool true) { s with te := s.te.setCh c { s.te.ch c with state := .genBusyTone } } ∧
      Returns (.tsCpt c.id 2) s (.bool true) { s with te := s.te.setCh c { s.te.ch c with state := .genCongestionTone } } ∧
      Returns (.tsCpt c.id 3) s (.bool true) { s with te := s.te.setCh c { s.te.ch c with state := .genRingingTone } } ∧
      (∀ kind : BitVec 4, 4 ≤ kind.toNat → Returns (.tsCpt c.id kind) s (.bool false) s)) ∧
    (∀ id kind, notOwned s id → Returns (.tsCpt id kind) s (.bool false) s)

/-- R174: an encodable string is stored as codes over a prefix of the digit buffer with its callback, and the state becomes
SendMf; a bad id, a null string or callback, or a string that does not encode for MF returns 0 and changes nothing. -/
def Obligations.SendMfInstallsTheDigits : Prop :=
  (∀ id str cb, opOf (encode (.tsSendMf id str cb)).1 = 0x04) ∧
  ∀ (s : State) (str cb : Word32), mayCommand s →
    (∀ c : ChanId, (s.te.ch c).owned = true →
      (str = 0 ∨ cb = 0 → Returns (.tsSendMf c.id str cb) s (.bool false) s) ∧
      (str ≠ 0 → cb ≠ 0 → digitEncode s.cfg .mf (readStr s.env.str str) = none →
        Returns (.tsSendMf c.id str cb) s (.bool false) s) ∧
      (∀ codes, str ≠ 0 → cb ≠ 0 → digitEncode s.cfg .mf (readStr s.env.str str) = some codes →
        Returns (.tsSendMf c.id str cb) s (.bool true)
          { s with te := s.te.setCh c { s.te.ch c with
              digits := codes ++ (s.te.ch c).digits.drop codes.length, dlen := codes.length, didx := 0,
              cb := some cb, state := .sendMf } })) ∧
    (∀ id, notOwned s id → Returns (.tsSendMf id str cb) s (.bool false) s)

/-- R175: as R174 with the DTMF encoding and SendDtmf; every string of permitted characters, `D` among them, that fits encodes. -/
def Obligations.SendDtmfInstallsTheDigits : Prop :=
  (∀ id str cb, opOf (encode (.tsSendDtmf id str cb)).1 = 0x05) ∧
  (∀ (cfg : Cfg) (chars : List Ascii), chars.length ≤ cfg.maxDigits → (∀ c ∈ chars, (digitCode c).isSome = true) →
    ∃ codes, digitEncode cfg .dtmf chars = some codes) ∧
  ∀ (s : State) (str cb : Word32), mayCommand s →
    (∀ c : ChanId, (s.te.ch c).owned = true →
      (str = 0 ∨ cb = 0 → Returns (.tsSendDtmf c.id str cb) s (.bool false) s) ∧
      (str ≠ 0 → cb ≠ 0 → digitEncode s.cfg .dtmf (readStr s.env.str str) = none →
        Returns (.tsSendDtmf c.id str cb) s (.bool false) s) ∧
      (∀ codes, str ≠ 0 → cb ≠ 0 → digitEncode s.cfg .dtmf (readStr s.env.str str) = some codes →
        Returns (.tsSendDtmf c.id str cb) s (.bool true)
          { s with te := s.te.setCh c { s.te.ch c with
              digits := codes ++ (s.te.ch c).digits.drop codes.length, dlen := codes.length, didx := 0,
              cb := some cb, state := .sendDtmf } })) ∧
    (∀ id, notOwned s id → Returns (.tsSendDtmf id str cb) s (.bool false) s)

/-- R176: buffer, length and callback (which may be none) are installed and the state becomes SendAudio; a bad id or a null buffer
returns 0 and changes nothing. -/
def Obligations.SendInstallsTheBuffer : Prop :=
  (∀ id buf len cb, opOf (encode (.tsSend id buf len cb)).1 = 0x06) ∧
  ∀ (s : State) (buf len cb : Word32), mayCommand s →
    (∀ c : ChanId, (s.te.ch c).owned = true →
      (buf = 0 → Returns (.tsSend c.id buf len cb) s (.bool false) s) ∧
      (buf ≠ 0 → Returns (.tsSend c.id buf len cb) s (.bool true)
        { s with te := s.te.setCh c { s.te.ch c with
            abuf := some buf, alen := len.toNat, cb := if cb = 0 then none else some cb, state := .sendAudio } })) ∧
    (∀ id, notOwned s id → Returns (.tsSend id buf len cb) s (.bool false) s)

/-- R177: as R176 with no callback and SendAudioLoop; a zero length fails too. -/
def Obligations.SendLoopInstallsTheBuffer : Prop :=
  (∀ id buf len, opOf (encode (.tsSendLoop id buf len)).1 = 0x07) ∧
  ∀ (s : State) (buf len : Word32), mayCommand s →
    (∀ c : ChanId, (s.te.ch c).owned = true →
      (buf = 0 ∨ len = 0 → Returns (.tsSendLoop c.id buf len) s (.bool false) s) ∧
      (buf ≠ 0 → len ≠ 0 → Returns (.tsSendLoop c.id buf len) s (.bool true)
        { s with te := s.te.setCh c { s.te.ch c with
            abuf := some buf, alen := len.toNat, cb := none, state := .sendAudioLoop } })) ∧
    (∀ id, notOwned s id → Returns (.tsSendLoop id buf len) s (.bool false) s)

/-- R178: an owned channel goes to Idle from any state and stays owned, nothing else changes and no callback fires; a bad id
returns 0 and changes nothing. -/
def Obligations.StopForcesIdle : Prop :=
  (∀ id, opOf (encode (.tsStop id)).1 = 0x08) ∧
  ∀ s : State, mayCommand s →
    (∀ c : ChanId, (s.te.ch c).owned = true →
      Returns (.tsStop c.id) s (.bool true) { s with te := s.te.setCh c { s.te.ch c with state := .idle } }) ∧
    (∀ id, notOwned s id → Returns (.tsStop id) s (.bool false) s)

/-- R170: every command that takes an id fails, returning 0 and changing nothing, when the id is not 0 or 1 or names a channel that
is not owned. -/
def Obligations.InvalidIdFailsEveryCommand : Prop :=
  ∀ (s : State) (id : BitVec 4), mayCommand s → notOwned s id →
    Returns (.tsRelease id) s (.bool false) s ∧ Returns (.tsStop id) s (.bool false) s ∧
    (∀ kind, Returns (.tsCpt id kind) s (.bool false) s) ∧
    (∀ str cb, Returns (.tsSendMf id str cb) s (.bool false) s ∧ Returns (.tsSendDtmf id str cb) s (.bool false) s) ∧
    (∀ buf len, Returns (.tsSendLoop id buf len) s (.bool false) s ∧
      ∀ cb, Returns (.tsSend id buf len cb) s (.bool false) s)

/-- R182: a command of the tone engine that returns 0 or none has changed nothing (but the return value and the model's
diagnostic). -/
def Obligations.FailedToneCommandChangesNothing : Prop :=
  ∀ (i : Instr) (s t : State),
    isTone i = true → exec i s = .next t → t.ret = .bool false ∨ t.ret = .noChannel →
    t = { s with ret := t.ret, diag := t.diag }

/-- R82: a string encodes exactly when it fits and every character has a code the mode admits, and the codes are then those of
its characters in order. -/
def Obligations.DigitEncodeIsAllOrNothing : Prop :=
  ∀ (cfg : Cfg) (mode : DigitMode) (chars : List Ascii) (codes : List DigitCode),
    digitEncode cfg mode chars = some codes ↔
      chars.length ≤ cfg.maxDigits ∧ codes.length = chars.length ∧
      ∀ (k : Nat) (c : Ascii) (d : DigitCode), chars[k]? = some c → codes[k]? = some d → digitCode c = some d ∧ (mode = .mf → d ≠ 0xF)

/-- R81: the table of digit characters, read both ways; `D` is invalid for MF and only for MF. -/
def Obligations.DigitCodesFollowTheTable : Prop :=
  (∀ d : DigitCode, digitCode (digitChar d) = some d) ∧
  (∀ (c : Ascii) (d : DigitCode), digitCode c = some d → c = digitChar d) ∧
  (∀ c : Ascii, 0x30#8 ≤ c → c ≤ 0x39#8 → (digitCode c).map BitVec.toNat = some (c.toNat - 0x30)) ∧
  [0x2A#8, 0x23#8, 0x41#8, 0x42#8, 0x43#8, 0x44#8].map digitCode =
    [some 0xA#4, some 0xB#4, some 0xC#4, some 0xD#4, some 0xE#4, some 0xF#4] ∧
  (∀ c : Ascii, encodeChar .dtmf c = digitCode c ∧
    encodeChar .mf c = if digitCode c = some 0xF#4 then none else digitCode c)

/-- R65: the characters a string is read as are the nonzero elements before its first NUL, all of them. -/
def Obligations.StringsAreReadUpToTheFirstNul : Prop :=
  ∀ (str : Cells 8) (h : Handle),
    (∀ k, k < (readStr str h).length →
      (readStr str h)[k]? = some (Cells.read str (handleIndex h k)) ∧ Cells.read str (handleIndex h k) ≠ 0) ∧
    Cells.read str (handleIndex h (readStr str h).length) = 0

/-! ## The multiplexer and the channel sequencer -/

/-- R179, R62, R180: with a legal half index `TS_REQUEST_BLOCK` completes; the sample of a channel's `j`-th tick lies at its
interleave position of stereo frame `j`, each channel has ticked `BLOCK_FRAMES` times as if alone, the completion events follow in
position order, no element of `OUT` outside the half changes, and nothing else changes. Any other half index is refused (R67). -/
def Obligations.RequestBlockInterleavesTheChannels : Prop :=
  (∀ half, opOf (encode (.tsRequestBlock half)).1 = 0x09) ∧
  (∀ (s : State) (half : BitVec 4), s.ctx = .outSignal → 2 ≤ half.toNat →
    exec (.tsRequestBlock half) s = .refused .badHalfIndex) ∧
  ∀ (s : State) (half : BitVec 4) (h : Half), s.ctx = .outSignal → halfOf half = some h →
    ∃ out : Cells 16,
      Returns (.tsRequestBlock half) s .nothing
        { s with
          te := { ch0 := chanAfter s.cfg s.env.audio .left s.cfg.blockFrames s.te.ch0,
                  ch1 := chanAfter s.cfg s.env.audio .right s.cfg.blockFrames s.te.ch1, out := out },
          log := s.log ++ blockEvents s.cfg s.env.audio s.cfg.blockFrames s.te } ∧
      (∀ j, j < s.cfg.blockFrames →
        Cells.read out (outIndex s.cfg h (2 * j)) = sampleAt s.cfg s.env.audio .left j s.te.ch0 ∧
        Cells.read out (outIndex s.cfg h (2 * j + 1)) = sampleAt s.cfg s.env.audio .right j s.te.ch1) ∧
      (∀ a, (∀ p, p < 2 * s.cfg.blockFrames → a ≠ outIndex s.cfg h p) → Cells.read out a = Cells.read s.te.out a)

/-- R127, R129, R130, R133: a call-progress head tick outputs 0, loads its pair with both phases 0, loads the timer (not for dial
tone) and the reload (busy and congestion), and goes to its wait state; nothing else changes. A duration is `floor(ms 8000 / 1000)`
ticks, 8 for each whole millisecond (R122). -/
def Obligations.CallProgressHeadsLoadTheTone : Prop :=
  (∀ ms : Q, 0 ≤ ms → (ms2ticks ms : Int) = (ms * 8000 / 1000).floor) ∧ (∀ n : Nat, ms2ticks n = 8 * n) ∧
  ∀ (cfg : Cfg) (audio : Cells 16) (c : ChanId) (ch : ChannelInfo),
    (ch.state = .genDialTone → chTick cfg audio c ch = tickOf
      { ch with tone0 := ncoSet cfg.dial.f0 cfg.dial.g0, tone1 := ncoSet cfg.dial.f1 cfg.dial.g1, state := .genDialToneWait } 0) ∧
    (ch.state = .genBusyTone → chTick cfg audio c ch = tickOf
      { ch with tone0 := ncoSet cfg.busy.f0 cfg.busy.g0, tone1 := ncoSet cfg.busy.f1 cfg.busy.g1,
                reload := ms2ticks cfg.busyCadenceMs, timer := ms2ticks cfg.busyCadenceMs, state := .busyWaitToneEnd } 0) ∧
    (ch.state = .genCongestionTone → chTick cfg audio c ch = tickOf
      { ch with tone0 := ncoSet cfg.cong.f0 cfg.cong.g0, tone1 := ncoSet cfg.cong.f1 cfg.cong.g1,
                reload := ms2ticks cfg.congCadenceMs, timer := ms2ticks cfg.congCadenceMs, state := .busyWaitToneEnd } 0) ∧
    (ch.state = .genRingingTone → chTick cfg audio c ch = tickOf
      { ch with tone0 := ncoSet cfg.ring.f0 cfg.ring.g0, tone1 := ncoSet cfg.ring.f1 cfg.ring.g1,
                timer := ms2ticks cfg.ringOnMs, state := .ringingWaitToneEnd } 0)

/-- R128, R107: dial tone goes on for ever by itself, every sample the pair's; each tick advances both oscillators and writes nothing
else. -/
def Obligations.DialToneNeverEndsByItself : Prop :=
  ∀ (cfg : Cfg) (audio : Cells 16) (c : ChanId) (ch : ChannelInfo) (n : Nat), ch.state = .genDialToneWait →
    chanAfter cfg audio c n ch = { ch with tone0 := oscAfter cfg n ch.tone0, tone1 := oscAfter cfg n ch.tone1 } ∧
    (chanAfter cfg audio c n ch).state = .genDialToneWait ∧
    sampleAt cfg audio c n ch = (pairTick cfg (chanAfter cfg audio c n ch)).2 ∧ eventsWithin cfg audio c n ch = []

/-- R123, R149: a tone burst entered with timer T whose first checking tick within the band is number T + z plays exactly
T + z + 1 ticks of the pair, then the silence state holds its own timer. Each tick advances both oscillators (R107) and counts the
timer down to 0; nothing else changes and no event is delivered. -/
def Obligations.ToneBurstLastsTimerPlusDeferral : Prop :=
  ∀ (cfg : Cfg) (audio : Cells 16) (c : ChanId) (ch : ChannelInfo) (next : ChState) (nextTimer z : Nat),
    toneEnd cfg ch = some (next, nextTimer) →
    (∀ k, k < z → cfg.zcThreshold < (sampleAt cfg audio c (ch.timer + k) ch).toInt.natAbs) →
    (sampleAt cfg audio c (ch.timer + z) ch).toInt.natAbs ≤ cfg.zcThreshold →
    (∀ k, k ≤ ch.timer + z →
      chanAfter cfg audio c k ch =
        { ch with tone0 := oscAfter cfg k ch.tone0, tone1 := oscAfter cfg k ch.tone1, timer := ch.timer - k } ∧
      sampleAt cfg audio c k ch = (pairTick cfg (chanAfter cfg audio c k ch)).2) ∧
    chanAfter cfg audio c (ch.timer + z + 1) ch =
      { ch with
        tone0 := oscAfter cfg (ch.timer + z + 1) ch.tone0, tone1 := oscAfter cfg (ch.timer + z + 1) ch.tone1,
        timer := nextTimer, state := next } ∧
    eventsWithin cfg audio c (ch.timer + z + 1) ch = []

/-- R124, R132, R135, R138, R141, R149: a silence entered with timer T outputs T + 1 zeros, counting down and touching nothing else,
then goes to its follower; the busy and congestion loop comes back to its tone with the timer reloaded and both phases 0. -/
def Obligations.SilenceLastsTimerPlusOne : Prop :=
  ∀ (cfg : Cfg) (audio : Cells 16) (c : ChanId) (ch : ChannelInfo) (next : ChState),
    silenceEnd ch.state = some next →
    (∀ k, k ≤ ch.timer →
      chanAfter cfg audio c k ch = { ch with timer := ch.timer - k } ∧ sampleAt cfg audio c k ch = 0) ∧
    (ch.state ≠ .busyWaitSilenceEnd →
      chanAfter cfg audio c (ch.timer + 1) ch = { ch with timer := 0, state := next }) ∧
    (ch.state = .busyWaitSilenceEnd →
      chanAfter cfg audio c (ch.timer + 1) ch =
        { ch with timer := ch.reload, tone0 := { ch.tone0 with phase := 0 }, tone1 := { ch.tone1 with phase := 0 },
                  state := next })

/-- R313: where the sample at phases (0, 0) lies in the zero-cross band, a tone whose timer has run out leaves its tone state
within 65536 ticks. -/
def Obligations.ZeroCrossDeferralIsBounded : Prop :=
  ∀ (cfg : Cfg) (audio : Cells 16) (c : ChanId) (ch : ChannelInfo) (next : ChState) (nextTimer n : Nat),
    toneEnd cfg ch = some (next, nextTimer) → ch.timer = 0 → advanced n ch.tone0 → advanced n ch.tone1 →
    (pairTick cfg (rewound ch)).2.toInt.natAbs ≤ cfg.zcThreshold →
    ∃ z, z < 65536 ∧ (∀ k, k ≤ z → (chanAfter cfg audio c k ch).state = ch.state) ∧
      (chanAfter cfg audio c (z + 1) ch).state = next ∧ (chanAfter cfg audio c (z + 1) ch).timer = nextTimer

/-- R136, R139: an outpulsing head with a digit left loads that digit's pair, gains and tone time and advances the index; with
none left it completes to Idle; an empty buffer aborts to Idle. Completion delivers the channel and its stored callback, and
nothing where none is stored (R125). -/
def Obligations.OutpulsingHeadsLoadOrFinish : Prop :=
  ∀ (cfg : Cfg) (audio : Cells 16) (c : ChanId) (ch : ChannelInfo) (d : DigitCode) (p : FreqPair),
    (∀ cb, ch.cb = some cb → complete c ch = [.teDone c cb]) ∧ (ch.cb = none → complete c ch = []) ∧
    (ch.state = .sendMf ∨ ch.state = .sendDtmf →
      (ch.dlen = 0 → chTick cfg audio c ch = { ch := { ch with state := .idle }, sample := 0, events := if cfg.emptyAbortCallback then complete c ch else [] }) ∧
      (0 < ch.dlen → ch.dlen ≤ ch.didx → chTick cfg audio c ch = { ch := { ch with state := .idle }, sample := 0, events := complete c ch })) ∧
    (ch.state = .sendMf → ch.didx < ch.dlen → ch.digits[ch.didx]? = some d → cfg.mfPair[d.toNat]? = some p →
      chTick cfg audio c ch = tickOf
        { ch with didx := ch.didx + 1, tone0 := ncoSet p.fa cfg.mfGain.g0, tone1 := ncoSet p.fb cfg.mfGain.g1,
                  timer := ms2ticks (if d = 0xA then cfg.mfKpMs else if 0xB ≤ d.toNat ∧ d.toNat ≤ 0xE then cfg.mfStMs else cfg.mfActiveMs),
                  state := .sendMfWaitToneEnd } 0) ∧
    (ch.state = .sendDtmf → ch.didx < ch.dlen → ch.digits[ch.didx]? = some d → cfg.dtmfPair[d.toNat]? = some p →
      chTick cfg audio c ch = tickOf
        { ch with didx := ch.didx + 1, tone0 := ncoSet p.fa cfg.dtmfGain.g0, tone1 := ncoSet p.fb cfg.dtmfGain.g1,
                  timer := ms2ticks cfg.dtmfActiveMs, state := .sendDtmfWaitToneEnd } 0)

/-- R142, R143: a buffer of `alen` samples plays as one zero, its samples in order, and one completing zero, with the completion
event of the stored callback, if there is one, exactly there (R125); no element beyond the end is read. Then it is Idle, and a tick of an Idle channel outputs 0,
writes nothing and delivers nothing (R126). -/
def Obligations.PlaybackPlaysTheBufferOnce : Prop :=
  (∀ (cfg : Cfg) (audio : Cells 16) (c : ChanId) (ch : ChannelInfo), ch.state = .idle →
    chTick cfg audio c ch = tickOf ch 0) ∧
  ∀ (cfg : Cfg) (audio : Cells 16) (c : ChanId) (ch : ChannelInfo) (h : Handle),
    ch.state = .sendAudio → ch.abuf = some h →
    sampleAt cfg audio c 0 ch = 0 ∧
    (∀ k, k < ch.alen → sampleAt cfg audio c (k + 1) ch = Cells.read audio (handleIndex h k)) ∧
    sampleAt cfg audio c (ch.alen + 1) ch = 0 ∧
    eventsWithin cfg audio c (ch.alen + 1) ch = [] ∧
    (∀ cb, ch.cb = some cb → eventsAt cfg audio c (ch.alen + 1) ch = [.teDone c cb]) ∧
    (ch.cb = none → eventsAt cfg audio c (ch.alen + 1) ch = []) ∧
    (∀ k, 1 ≤ k → k ≤ ch.alen + 1 → (chanAfter cfg audio c k ch).state = .sendAudioWait) ∧
    (∀ k, ch.alen + 2 ≤ k →
      chanAfter cfg audio c k ch = { ch with aidx := ch.alen, state := .idle } ∧
      sampleAt cfg audio c k ch = 0 ∧ eventsAt cfg audio c k ch = [])

/-- R144, R145: a loop outputs one zero and then the buffer's samples for ever, the index wrapping exactly at the length, with no
event. -/
def Obligations.LoopWrapsExactlyAtTheLength : Prop :=
  ∀ (cfg : Cfg) (audio : Cells 16) (c : ChanId) (ch : ChannelInfo) (h : Handle) (n : Nat),
    ch.state = .sendAudioLoop → ch.abuf = some h → 1 ≤ ch.alen →
    sampleAt cfg audio c 0 ch = 0 ∧
    sampleAt cfg audio c (n + 1) ch = Cells.read audio (handleIndex h (n % ch.alen)) ∧
    chanAfter cfg audio c (n + 1) ch = { ch with aidx := n % ch.alen, state := .sendAudioLoopWait } ∧
    eventsWithin cfg audio c n ch = []

/-- R148: with no new command a channel completes at most once, and after it is Idle. -/
def Obligations.ChannelCompletesAtMostOnce : Prop :=
  ∀ (cfg : Cfg) (audio : Cells 16) (c : ChanId) (ch : ChannelInfo) (n : Nat),
    (eventsWithin cfg audio c n ch).length ≤ 1 ∧
    (eventsWithin cfg audio c n ch ≠ [] → (chanAfter cfg audio c n ch).state = .idle)

/-- R22, R27: a tick writes neither the ownership flag, the digit string and its length, the callback, the installed buffer nor
its length. -/
def Obligations.TicksKeepWhatCommandsInstall : Prop :=
  ∀ (cfg : Cfg) (audio : Cells 16) (c : ChanId) (ch : ChannelInfo) (n : Nat),
    let t := chanAfter cfg audio c n ch
    t.owned = ch.owned ∧ t.digits = ch.digits ∧ t.dlen = ch.dlen ∧ t.cb = ch.cb ∧ t.abuf = ch.abuf ∧ t.alen = ch.alen

/-! ## The oscillator -/

/-- R102, R110: `NCO_SET` stores frequency and gain, resets the phase, and the tuning word is `round(2^16 f / FS_OUT)`, a half
rounding up, wherever that fits 16 bits; the frequency produced is off by at most `FS_OUT / 2^17`. -/
def Obligations.TuningWordIsTheRoundedRatio : Prop :=
  ∀ f g : Q, 0 ≤ f → ncoTw f ≤ 65535 →
    (ncoSet f g).freq = f ∧ (ncoSet f g).gain = g ∧ (ncoSet f g).phase = 0 ∧
    ((ncoSet f g).tw.toNat : Q) ≤ 65536 * f / 8000 + 1 / 2 ∧ 65536 * f / 8000 + 1 / 2 < ((ncoSet f g).tw.toNat : Q) + 1 ∧
    ((ncoSet f g).tw.toNat : Q) * 8000 / 65536 - f ≤ 8000 / 131072 ∧ f - ((ncoSet f g).tw.toNat : Q) * 8000 / 65536 ≤ 8000 / 131072

/-- R109, R105: from phase 0 the phase after `n` ticks is `n tw mod 2^16` and first comes back to 0 after
`2^16 / gcd(2^16, tw)` ticks; a component of frequency 0 contributes 0 and does not advance (R106). -/
def Obligations.PhasePeriodIsTheGcdQuotient : Prop :=
  ∀ (cfg : Cfg) (o : Osc) (n : Nat),
    (o.freq ≠ 0 → o.phase = 0 →
      (oscAfter cfg n o).phase.toNat = n * o.tw.toNat % 65536 ∧
      ((oscAfter cfg n o).phase = 0 ↔ 65536 / Nat.gcd 65536 o.tw.toNat ∣ n)) ∧
    (o.freq = 0 → oscAfter cfg n o = o ∧ (ncoTick cfg o).2 = 0)

/-- R104: `scale` truncates the exact product toward zero, is odd, and never exceeds the product in magnitude. -/
def Obligations.ScaleTruncatesTowardZero : Prop :=
  ∀ (raw : Int) (g : Q), 0 ≤ g →
    scale (-raw) g = -scale raw g ∧
    ((scale raw g).natAbs : Q) ≤ (raw.natAbs : Q) * g ∧ (raw.natAbs : Q) * g < ((scale raw g).natAbs : Q) + 1 ∧
    (0 ≤ raw → 0 ≤ scale raw g)

/-- R107, R12 (c): under a well-formed configuration's table and gains the pair sample is the exact sum of the two exact scaled
samples, so the register's overflow is never exercised, and both oscillators advance. R61, R105, R106: a sounding component's raw
sample is `SINE_TABLE[phase / 2^(16 - TABLE_BITS)]` at the phase before the advance by the tuning word; a silent one gives 0 and
stays. -/
def Obligations.PairSumNeverOverflows : Prop :=
  ∀ (cfg : Cfg) (ch : ChannelInfo),
    Cfg.wellFormed cfg = true → gainsOk (Cfg.amp cfg.sineTable) ch.tone0.gain ch.tone1.gain = true →
    (pairTick cfg ch).2.toInt = exactSample cfg ch.tone0 + exactSample cfg ch.tone1 ∧
    (pairTick cfg ch).1 = { ch with tone0 := oscAfter cfg 1 ch.tone0, tone1 := oscAfter cfg 1 ch.tone1 } ∧
    (∀ o : Osc, o.freq ≠ 0 →
      oscAfter cfg 1 o = { o with phase := o.phase + o.tw } ∧
      ∃ raw, cfg.sineTable[o.phase.toNat / 2 ^ (16 - cfg.tableBits)]? = some raw ∧
        exactSample cfg o = scale raw.toInt o.gain) ∧
    (∀ o : Osc, o.freq = 0 → oscAfter cfg 1 o = o ∧ exactSample cfg o = 0)

/-! ## The receiver's commands and the frame event -/

/-- R251: `MF_SEIZE` fails with 0 unless Idle and with a callback; with the driver answering ok it starts sampling, resets
counters, digits and error, stores the callback, goes to WaitKp and returns a nonzero descriptor, which it also stores. -/
def Obligations.MfSeizeStartsAReception : Prop :=
  (∀ cb, opOf (encode (.mfSeize cb)).1 = 0x11) ∧
  ∀ (s : State) (cb : Word32), s.ctx = .task →
    (s.mr.mf.state ≠ .idle → Returns (.mfSeize cb) s (.desc 0) s) ∧
    (cb = 0 → Returns (.mfSeize cb) s (.desc 0) s) ∧
    (s.mr.mf.state = .idle → cb ≠ 0 → s.env.drvStart = .ok →
      ∃ d : Word32, d ≠ 0 ∧ Returns (.mfSeize cb) s (.desc d)
        { s with
          draws := s.draws + 1,
          mr := { s.mr with
            samplingOn := true,
            mf := { s.mr.mf with
              timer := 0, kpCount := 0, digCount := 0, cand := 0, pend := none, ndigits := 0,
              digits := s.mr.mf.digits.set 0 0, error := .ok, cb := some cb, desc := d, state := .waitKp } } })

/-- R253: `MF_RELEASE` with the matching nonzero descriptor and the driver answering ok stops sampling, frees the receiver and
clears the callback, leaving digits, error and counters; any other descriptor returns 0 and changes nothing. -/
def Obligations.MfReleaseFreesTheReceiver : Prop :=
  (∀ desc, opOf (encode (.mfRelease desc)).1 = 0x12) ∧
  ∀ (s : State) (desc : Word32), s.ctx = .task →
    (desc = 0 ∨ desc ≠ s.mr.mf.desc → Returns (.mfRelease desc) s (.bool false) s) ∧
    (desc ≠ 0 → desc = s.mr.mf.desc → s.env.drvStop = .ok →
      Returns (.mfRelease desc) s (.bool true)
        { s with mr := { s.mr with samplingOn := false, mf := { s.mr.mf with state := .idle, desc := 0, cb := none } } })

/-- R254, U7: a receiver command from inside the MF callback has no successor. -/
def Obligations.ReceiverCommandInItsCallbackDeadlocks : Prop :=
  ∀ (s : State) (w : Word32), s.ctx = .mfCallback →
    exec (.mfSeize w) s = .fault .deadlock ∧ exec (.mfRelease w) s = .fault .deadlock

/-- R250, R279, U11: a driver failure sets the fatal flag and nothing else of the command takes effect; from then on there is no
step. -/
def Obligations.DriverFailureIsFatal : Prop :=
  ∀ (s : State) (w : Word32), s.ctx = .task → w ≠ 0 →
    (s.mr.mf.state = .idle → s.env.drvStart = .fail →
      Returns (.mfSeize w) s .nothing { s with fatal := true }) ∧
    (w = s.mr.mf.desc → s.env.drvStop = .fail →
      Returns (.mfRelease w) s .nothing { s with fatal := true }) ∧
    step { s with fatal := true } = .fault .fatalHalt

/-- R255: a frame event outside reception changes nothing; in reception it completes when the samples are in the ADC's range: filter
bank, classification, decoder, events logged; a sample out of range (U18) and a half index outside {0, 1}
(R67) are refused. -/
def Obligations.HandleBufferProcessesOneFrame : Prop :=
  (∀ half, opOf (encode (.mfHandleBuffer half)).1 = 0x19) ∧
  (∀ (s : State) (half : BitVec 4), s.ctx = .adcSignal → 2 ≤ half.toNat →
    exec (.mfHandleBuffer half) s = .refused .badHalfIndex) ∧
  ∀ (s : State) (half : BitVec 4) (h : Half), s.ctx = .adcSignal → halfOf half = some h →
    (s.mr.mf.state = .idle ∨ s.mr.mf.state = .waitRelease → Returns (.mfHandleBuffer half) s .nothing s) ∧
    (s.mr.mf.state ≠ .idle → s.mr.mf.state ≠ .waitRelease →
      (∀ n, n < 320 → (s.readAdc h n).toNat < 2 ^ s.cfg.adcBits) →
      ∃ raw mr, raw = (List.range 320).map (fun n => (s.readAdc h n).toNat) ∧ mr = gzFrame s.cfg raw s.mr ∧
        Returns (.mfHandleBuffer half) s .nothing
          { s with
            mr := { mr with mf := (mfdStep s.cfg (gzClassify s.cfg mr.gz) s.mr.mf).1 },
            log := s.log ++ (mfdStep s.cfg (gzClassify s.cfg mr.gz) s.mr.mf).2 }) ∧
    (s.mr.mf.state ≠ .idle → s.mr.mf.state ≠ .waitRelease →
      (∃ n, n < 320 ∧ 2 ^ s.cfg.adcBits ≤ (s.readAdc h n).toNat) →
      exec (.mfHandleBuffer half) s = .refused .adcSampleOutOfRange)

/-- R281, R278, D24: who may issue what. A command from inside a tone-engine callback, or from a buffer-ready signal, and an event
from anywhere but its own signal, are refused. -/
def Obligations.OnlyTheRightContextIssues : Prop :=
  ∀ (i : Instr) (s : State),
    (isEvent i = false → s.ctx = .toneCallback → exec i s = .refused .commandInToneCallback) ∧
    (isEvent i = false → s.ctx = .outSignal ∨ s.ctx = .adcSignal → exec i s = .refused .wrongContext) ∧
    (isEvent i = true → isTone i = true → s.ctx ≠ .outSignal → exec i s = .refused .wrongContext) ∧
    (isEvent i = true → isTone i = false → s.ctx ≠ .adcSignal → exec i s = .refused .wrongContext)

/-! ## The filter bank -/

/-- R203, R204, R205, R211 (c): in the reference arithmetic a frame whose raw samples all equal the ADC centre leaves every
detector at 0 and is classed silence, whatever the coefficients. -/
def Obligations.CentredFrameIsSilence : Prop :=
  ∀ (cfg : Cfg) (r : Receiver), cfg.numerics = .exact → 0 ≤ cfg.silenceThreshold →
    (gzFrame cfg (List.replicate 320 cfg.adcCenter) r).frame = List.replicate 320 0 ∧
    (gzFrame cfg (List.replicate 320 cfg.adcCenter) r).gz =
      r.gz.map (fun g => { g with q1 := 0, q2 := 0, power2 := 0 }) ∧
    gzClassify cfg (gzFrame cfg (List.replicate 320 cfg.adcCenter) r).gz = .silence

/-- R202, R203, R204: the corrected frame of any raw samples is each sample normalised by the negated centre, less the offset
`(1 - vmax) - (1 - |vmin|)` of the frame's own greatest and least value, and every detector runs over it; nothing else of the
receiver changes. In the reference arithmetic the operations are the exact ones, so the signal is inverted, and a constant frame
`a` stays `a` where `a` is not negative and becomes `3 a` where it is. The order of the operations is log entry 8. -/
def Obligations.CorrectedFrameFollowsTheFormula : Prop :=
  (∀ (cfg : Cfg) (raw : List Nat) (r : Receiver), raw ≠ [] →
    let nm := cfg.numerics
    let v := fun x : Nat => numDiv nm (numSub nm (x : Q) (cfg.adcCenter : Q)) (-(cfg.adcCenter : Q))
    ∃ vmax vmin : Q,
      (∃ x ∈ raw, v x = vmax) ∧ (∀ x ∈ raw, v x ≤ vmax) ∧ (∃ x ∈ raw, v x = vmin) ∧ (∀ x ∈ raw, vmin ≤ v x) ∧
      ∃ frame, frame = raw.map (fun x => numSub nm (v x) (numSub nm (numSub nm 1 vmax) (numSub nm 1 (numAbs nm vmin)))) ∧
        gzFrame cfg raw r = { r with frame := frame, gz := r.gz.map (runDetector nm frame) }) ∧
  (∀ a b : Q, numSub .exact a b = a - b ∧ numDiv .exact a b = a / b ∧ numAbs .exact a = |a|) ∧
  (∀ (cfg : Cfg) (x : Nat), cfg.numerics = .exact → normalise cfg x = ((cfg.adcCenter : Q) - x) / cfg.adcCenter) ∧
  (∀ (n : Nat) (a : Q),
    removeDc .exact (List.replicate (n + 1) a) = List.replicate (n + 1) (if 0 ≤ a then a else 3 * a))

/-- R205, R206: in every detector and arithmetic the recurrence starts from 0 and takes one sample at a time, and the radicand of
the power is computed from its last two values. In the reference arithmetic the operations are the exact ones, and a unit impulse
followed by any number of zero samples gives power exactly 1, for every coefficient. The order of the operations is log entry 8. -/
def Obligations.DetectorsRunTheRecurrence : Prop :=
  (∀ (nm : Numerics) (g : GoertzelData),
    (runDetector nm [] g).q1 = 0 ∧ (runDetector nm [] g).q2 = 0 ∧
    ∀ (frame : List Q) (x : Q),
      (runDetector nm (frame ++ [x]) g).q1 =
        numAdd nm (numSub nm (numMul nm g.coeff (runDetector nm frame g).q1) (runDetector nm frame g).q2) x ∧
      (runDetector nm (frame ++ [x]) g).q2 = (runDetector nm frame g).q1 ∧
      (runDetector nm frame g).coeff = g.coeff ∧
      (runDetector nm frame g).power2 =
        numSub nm
          (numAdd nm (numMul nm (runDetector nm frame g).q1 (runDetector nm frame g).q1)
            (numMul nm (runDetector nm frame g).q2 (runDetector nm frame g).q2))
          (numMul nm (numMul nm g.coeff (runDetector nm frame g).q1) (runDetector nm frame g).q2)) ∧
  (∀ a b : Q, numAdd .exact a b = a + b ∧ numSub .exact a b = a - b ∧ numMul .exact a b = a * b) ∧
  (∀ (g : GoertzelData) (n : Nat), (runDetector .exact (1 :: List.replicate n 0) g).power2 = 1)

/-- R211 (a), (b): in the reference arithmetic scaling every corrected sample by `a` (negating them, for `a = -1`) scales the
squared power by `a^2`. -/
def Obligations.PowerScalesWithTheFrame : Prop :=
  ∀ (a : Q) (frame : List Q) (g : GoertzelData),
    (runDetector .exact (frame.map fun x => a * x) g).power2 = a * a * (runDetector .exact frame g).power2

/-- R206, R207, R209: in every arithmetic a tone is present exactly when its power exceeds the threshold; the exact arithmetic's
power is the real square root, and with a coefficient between -2 and 2 its radicand is never negative. It rests on log entry 7
(the register holds the radicand). -/
def Obligations.PresenceIsPowerAboveTheThreshold : Prop :=
  ∀ (cfg : Cfg) (frame : List Q) (g : GoertzelData), 0 ≤ cfg.silenceThreshold →
    (present cfg (runDetector cfg.numerics frame g) = true ↔
      (cfg.silenceThreshold : ℝ) < powerOf cfg.numerics (runDetector cfg.numerics frame g)) ∧
    powerOf .exact (runDetector .exact frame g) = Real.sqrt ((runDetector .exact frame g).power2 : ℝ) ∧
    (-2 ≤ g.coeff → g.coeff ≤ 2 → 0 ≤ (runDetector .exact frame g).power2)

/-- R208, R84: no tone is silence, two tones are valid with their two bits, every other count is invalid. R85, R221: under a
well-formed configuration `MF_DECODE` gives each row's character for its mask, that of no other, and some character for every mask
of two tones; the characters that end a reception are `#`, `A`, `B`, `C`. -/
def Obligations.FrameClassesCountTonesAndDecode : Prop :=
  (∀ p : Six Bool,
    (classOf p = .silence ↔ p.toList.count true = 0) ∧
    (classOf p = .invalid ↔ p.toList.count true ≠ 0 ∧ p.toList.count true ≠ 2) ∧
    (∀ m : Mask, classOf p = .valid m → p.toList.count true = 2 ∧ (List.range 6).map m.getLsbD = p.toList)) ∧
  (∀ j k : Nat, j < 6 → k < 6 →
    pairMask ⟨((700 + 200 * j : Nat) : Q), ((700 + 200 * k : Nat) : Q)⟩ = BitVec.ofNat 6 (2 ^ j) ||| BitVec.ofNat 6 (2 ^ k)) ∧
  (∀ cfg : Cfg, Cfg.wellFormed cfg = true →
    (∀ d : DigitCode, cfg.mfPair[d.toNat]? = none ↔ d = 0xF) ∧
    (∀ (d : DigitCode) (p : FreqPair), cfg.mfPair[d.toNat]? = some p → mfDecode cfg (pairMask p) = some (digitChar d)) ∧
    (∀ (m : Mask) (ch : Ascii), mfDecode cfg m = some ch →
      ∃ (d : DigitCode) (p : FreqPair), cfg.mfPair[d.toNat]? = some p ∧ pairMask p = m ∧ digitChar d = ch) ∧
    (∀ m : Mask, ((List.range 6).map m.getLsbD).count true = 2 → (mfDecode cfg m).isSome = true)) ∧
  (∀ ch : Ascii, isTerminator ch = true ↔ ch ∈ [0x23#8, 0x41#8, 0x42#8, 0x43#8])

/-! ## The decoder -/

/-- R235, S4: KP for the gate count, silence, digit 2 and then ST for the digit count each with its silence, from a fresh seizure,
end in WaitRelease with exactly one event: OK, three digits, "*2#". -/
def Obligations.ShortestSequenceIsAccepted : Prop :=
  ∀ (cfg : Cfg) (mf : MfData) (h : Handle),
    1 ≤ cfg.minKpGateBlockCount → 1 ≤ cfg.minDigitBlockCount → 3 ≤ cfg.mfMaxDigits →
    mfDecode cfg 0x05 = some 0x32 → mfDecode cfg 0x30 = some 0x23 →
    mf.state = .waitKp → mf.kpCount = 0 → mf.ndigits = 0 → mf.digits.length = cfg.mfMaxDigits + 1 →
    mf.error = .ok → mf.cb = some h →
    let r := feed cfg
      (List.replicate cfg.minKpGateBlockCount (.valid kpMask) ++ [.silence] ++
        List.replicate cfg.minDigitBlockCount (.valid 0x05) ++ [.silence] ++
        List.replicate cfg.minDigitBlockCount (.valid 0x30) ++ [.silence]) mf
    r.1.state = .waitRelease ∧ r.2 = [.mfDone (some h) .ok 3 [0x2A, 0x32, 0x23]]

/-- R236, S5: in WaitDigit with timer 0, as many silent or invalid frames as the timeout end in WaitRelease with one TIMEOUT event
carrying the digits so far; fewer of them deliver nothing. -/
def Obligations.InterdigitTimeoutDeliversTheDigits : Prop :=
  ∀ (cfg : Cfg) (mf : MfData) (cs : List FrameClass),
    1 ≤ cfg.mfInterdigitTimeout → mf.state = .waitDigit → mf.timer = 0 → (∀ c ∈ cs, notValid c) →
    (cs.length < cfg.mfInterdigitTimeout →
      (feed cfg cs mf).1.state = .waitDigit ∧ (feed cfg cs mf).1.timer = cs.length ∧ (feed cfg cs mf).2 = []) ∧
    (cs.length = cfg.mfInterdigitTimeout →
      (feed cfg cs mf).1.state = .waitRelease ∧ (feed cfg cs mf).1.error = .timeout ∧
      (feed cfg cs mf).2 = [.mfDone mf.cb .timeout mf.ndigits (mf.digits.take mf.ndigits)])

/-- R237, R233: however many frames come, a settled decoder delivers at most one completion, and after it is in WaitRelease, which
no frame leaves. -/
def Obligations.ReceptionCompletesAtMostOnce : Prop :=
  ∀ (cfg : Cfg) (cs : List FrameClass) (mf : MfData), settled mf →
    (feed cfg cs mf).2.length ≤ 1 ∧ ((feed cfg cs mf).2 ≠ [] → (feed cfg cs mf).1.state = .waitRelease) ∧
    (mf.state = .waitRelease → feed cfg cs mf = (mf, []))

/-- R318, R226: with no KP frame, WaitKp waits for ever: no timer, no digit, no event. -/
def Obligations.WaitKpNeverTimesOut : Prop :=
  ∀ (cfg : Cfg) (cs : List FrameClass) (mf : MfData),
    mf.state = .waitKp → (∀ c ∈ cs, c ≠ .valid kpMask) →
    (feed cfg cs mf).2 = [] ∧ (feed cfg cs mf).1 = { mf with kpCount := if cs = [] then mf.kpCount else 0 }

/-- R34, R230, R234, C1: between events the decoder is never in Timeout or Done, and its state code never falls but for the
per-digit loop from WaitDigitSilence to WaitDigit. -/
def Obligations.DecodeStateOnlyAdvances : Prop :=
  ∀ (cfg : Cfg) (cls : FrameClass) (mf : MfData), settled mf →
    settled (mfdStep cfg cls mf).1 ∧
    (mf.state.code.toNat ≤ (mfdStep cfg cls mf).1.state.code.toNat ∨
      (mf.state = .waitDigitSilence ∧ (mfdStep cfg cls mf).1.state = .waitDigit))

/-- R226, R227: one frame in WaitKp (count KP frames, accept at the gate count, reset on any other frame, no timer) and one frame in
KpSilence (silence goes on to WaitDigit, anything else runs the timer, which ends in a TIMEOUT delivered in the same step). -/
def Obligations.KpStatesFollowTheirRules : Prop :=
  ∀ (cfg : Cfg) (cls : FrameClass) (mf : MfData),
    (mf.state = .waitKp →
      (cls ≠ .valid kpMask → mfdStep cfg cls mf = ({ mf with kpCount := 0 }, [])) ∧
      (cls = .valid kpMask → mf.kpCount + 1 < cfg.minKpGateBlockCount →
        mfdStep cfg cls mf = ({ mf with kpCount := mf.kpCount + 1 }, [])) ∧
      (cls = .valid kpMask → cfg.minKpGateBlockCount ≤ mf.kpCount + 1 →
        mfdStep cfg cls mf =
          ({ mf with
              digits := if mf.ndigits < cfg.mfMaxDigits then (mf.digits.set mf.ndigits 0x2A).set (mf.ndigits + 1) 0 else mf.digits,
              ndigits := if mf.ndigits < cfg.mfMaxDigits then mf.ndigits + 1 else mf.ndigits,
              kpCount := 0, digCount := 0, cand := 0, timer := 0, state := .kpSilence }, []))) ∧
    (mf.state = .kpSilence →
      (cls = .silence → mfdStep cfg cls mf = ({ mf with timer := 0, digCount := 0, cand := 0, state := .waitDigit }, [])) ∧
      (cls ≠ .silence → mf.timer + 1 < cfg.mfInterdigitTimeout →
        mfdStep cfg cls mf = ({ mf with timer := mf.timer + 1 }, [])) ∧
      (cls ≠ .silence → cfg.mfInterdigitTimeout ≤ mf.timer + 1 →
        mfdStep cfg cls mf =
          ({ mf with timer := mf.timer + 1, error := .timeout, state := .waitRelease },
            [.mfDone mf.cb .timeout mf.ndigits (mf.digits.take mf.ndigits)])))

/-- R222, R223, R228, R229, R230: one frame in WaitDigit (a valid frame counts its code, a change of code restarts the count at 1,
the digit count makes a matched code pending and drops an unmatched one; any other frame resets the count and runs the timer) and
in WaitDigitSilence (silence appends the pending digit and ends the reception or loops; anything else runs the timer). So a run
of one decodable code, from a fresh count, becomes pending exactly at the digit count. -/
def Obligations.DigitStatesFollowTheirRules : Prop :=
  ∀ (cfg : Cfg) (mf : MfData),
    (mf.state = .waitDigit →
      (∀ (m : Mask) (n : Nat), n = (if mf.digCount = 0 ∨ m ≠ mf.cand then 1 else mf.digCount + 1) →
        (n < cfg.minDigitBlockCount → mfdStep cfg (.valid m) mf = ({ mf with cand := m, digCount := n }, [])) ∧
        (∀ ch, cfg.minDigitBlockCount ≤ n → mfDecode cfg m = some ch →
          mfdStep cfg (.valid m) mf =
            ({ mf with cand := m, digCount := n, pend := some ch, timer := 0, state := .waitDigitSilence }, [])) ∧
        (cfg.minDigitBlockCount ≤ n → mfDecode cfg m = none →
          mfdStep cfg (.valid m) mf = ({ mf with cand := m, digCount := 0 }, []))) ∧
      (∀ cls, notValid cls →
        (mf.timer + 1 < cfg.mfInterdigitTimeout →
          mfdStep cfg cls mf = ({ mf with digCount := 0, timer := mf.timer + 1 }, [])) ∧
        (cfg.mfInterdigitTimeout ≤ mf.timer + 1 →
          mfdStep cfg cls mf =
            ({ mf with digCount := 0, timer := mf.timer + 1, error := .timeout, state := .waitRelease },
              [.mfDone mf.cb .timeout mf.ndigits (mf.digits.take mf.ndigits)]))) ∧
      (∀ (m : Mask) (ch : Ascii) (n : Nat), mf.digCount = 0 → mfDecode cfg m = some ch →
        (1 ≤ n → n < cfg.minDigitBlockCount →
          feed cfg (List.replicate n (.valid m)) mf = ({ mf with cand := m, digCount := n }, [])) ∧
        (1 ≤ n → n = cfg.minDigitBlockCount →
          feed cfg (List.replicate n (.valid m)) mf =
            ({ mf with cand := m, digCount := n, pend := some ch, timer := 0, state := .waitDigitSilence }, [])))) ∧
    (mf.state = .waitDigitSilence →
      (∀ (ch : Ascii) (digits : List Ascii) (n : Nat), mf.pend = some ch →
        digits = (if mf.ndigits < cfg.mfMaxDigits then (mf.digits.set mf.ndigits ch).set (mf.ndigits + 1) 0 else mf.digits) →
        n = (if mf.ndigits < cfg.mfMaxDigits then mf.ndigits + 1 else mf.ndigits) →
        (isTerminator ch = false →
          mfdStep cfg .silence mf =
            ({ mf with digits := digits, ndigits := n, digCount := 0, cand := 0, timer := 0, state := .waitDigit }, [])) ∧
        (isTerminator ch = true →
          mfdStep cfg .silence mf =
            ({ mf with digits := digits, ndigits := n, state := .waitRelease },
              [.mfDone mf.cb mf.error n (digits.take n)]))) ∧
      (∀ cls, cls ≠ .silence →
        (mf.timer + 1 < cfg.mfInterdigitTimeout → mfdStep cfg cls mf = ({ mf with timer := mf.timer + 1 }, [])) ∧
        (cfg.mfInterdigitTimeout ≤ mf.timer + 1 →
          mfdStep cfg cls mf =
            ({ mf with timer := mf.timer + 1, error := .timeout, state := .waitRelease },
              [.mfDone mf.cb .timeout mf.ndigits (mf.digits.take mf.ndigits)]))))

/-! ## The whole machine -/

/-- R25, R34, R36, R230, R238, R12 (c): the invariant of the machine is kept by every step, from every state that has it. -/
def Obligations.StepKeepsTheInvariant : Prop :=
  ∀ s t : State, s.Inv → step s = .next t → t.Inv

/-- R43, R300, R302: `SETUP` of a well-formed configuration with a driver that answers ok leaves every piece of the spec's state at
its reset value and establishes the invariant, so the state after reset (REFCFG's, log entry 1) has it; an ill-formed
configuration is refused, and a failing driver is fatal. -/
def Obligations.SetupEstablishesTheResetState : Prop :=
  State.reset = State.init refCfg ∧ State.reset.Inv ∧
  ∀ cfg : Cfg,
    (Cfg.wellFormed cfg = true →
      (State.init cfg).Inv ∧
      (∃ t, setup cfg .ok = .next t ∧ t.cfg = cfg ∧ t = State.init cfg ∧
        (∀ c : ChanId, t.te.ch c =
          { owned := false, state := .idle, digits := List.replicate cfg.maxDigits 0, dlen := 0, didx := 0,
            tone0 := { freq := 0, gain := 0, phase := 0, tw := 0 }, tone1 := { freq := 0, gain := 0, phase := 0, tw := 0 },
            timer := 0, reload := 0, cb := none, abuf := none, alen := 0, aidx := 0 }) ∧
        (∀ h p, t.readOut h p = 0) ∧
        t.mr.gz = cfg.gzCoeff.map (fun k => { q1 := 0, q2 := 0, coeff := k, power2 := 0 }) ∧
        (∀ g ∈ t.mr.gz.toList, powerOf cfg.numerics g = 0) ∧
        t.mr.frame = List.replicate 320 0 ∧ t.mr.samplingOn = false ∧
        t.mr.mf =
          { state := .idle, timer := 0, kpCount := 0, digCount := 0, cand := 0, pend := none,
            digits := List.replicate (cfg.mfMaxDigits + 1) 0, ndigits := 0, error := .ok, cb := none, desc := 0 } ∧
        t.fatal = false ∧ t.log = []) ∧
      ∃ t, setup cfg .fail = .next t ∧ t.fatal = true ∧ step t = .fault .fatalHalt) ∧
    (Cfg.wellFormed cfg = false → ∀ a, setup cfg a = .refused .illFormedConfig)

/-- R3: the two data paths share no state: an instruction of one engine leaves the other engine as it was, and what it does to its
own does not depend on the other. -/
def Obligations.EnginesDoNotInterfere : Prop :=
  ∀ (i : Instr) (s t : State), exec i s = .next t →
    (isTone i = true → t.mr = s.mr ∧ ∀ mr' : Receiver, ∃ t', exec i { s with mr := mr' } = .next t' ∧ t'.te = t.te ∧ t'.mr = mr') ∧
    (isTone i = false → t.te = s.te ∧ ∀ te' : ToneEngine, ∃ t', exec i { s with te := te' } = .next t' ∧ t'.mr = t.mr ∧ t'.te = te')

/-- R71 (d): steps of the two engines commute: in either order both complete and leave the same two engines and fatal flag. -/
def Obligations.EngineStepsCommute : Prop :=
  ∀ (i j : Instr) (ci cj : Ctx) (s si sj : State),
    isTone i = true → isTone j = false → execFrom ci i s = .next si → execFrom cj j s = .next sj →
    ∃ sij sji, execFrom cj j si = .next sij ∧ execFrom ci i sj = .next sji ∧
      sij.te = sji.te ∧ sij.mr = sji.mr ∧ sij.fatal = sji.fatal

/-- R37, R39, R20: every instruction and every step appends to the event log and keeps the configuration, and no instruction clears
the fatal flag. -/
def Obligations.LogGrowsAndConfigurationStays : Prop :=
  (∀ (i : Instr) (s t : State), exec i s = .next t →
    t.cfg = s.cfg ∧ (∃ es, t.log = s.log ++ es) ∧ (s.fatal = true → t.fatal = true)) ∧
  (∀ s t : State, step s = .next t → t.cfg = s.cfg ∧ ∃ es, t.log = s.log ++ es)

/-- R27, R74: only `TS_SEIZE` and `TS_RELEASE` change an ownership flag, and a seize never takes a channel that is owned. -/
def Obligations.OwnershipChangesOnlyBySeizeAndRelease : Prop :=
  ∀ (i : Instr) (s t : State) (c : ChanId), exec i s = .next t → (t.te.ch c).owned ≠ (s.te.ch c).owned →
    (i = .tsSeize ∧ (s.te.ch c).owned = false ∧ t.ret = .channel c) ∨ (i = .tsRelease c.id ∧ (s.te.ch c).owned = true)

/-- R233, R252: a receiver that has delivered its callback leaves WaitRelease only by `MF_RELEASE` with its own descriptor. -/
def Obligations.WaitReleaseIsLeftOnlyByRelease : Prop :=
  ∀ (i : Instr) (s t : State), exec i s = .next t → s.mr.mf.state = .waitRelease → t.mr.mf.state ≠ .waitRelease →
    i = .mfRelease s.mr.mf.desc ∧ t.mr.mf.state = .idle

/-- The environment's own steps (R19, R63, R64, R65, R250) change its spaces and the port only; reading back gives what was written and
leaves every other element. The port and the spaces' layout are the model's (log entries 2 and 12). -/
def Obligations.EnvironmentStepsTouchNoEngine : Prop :=
  ∀ (s t : State) (inp : Input) (rest : List Input),
    running s → s.inputs = inp :: rest → (∀ r, inp ≠ .request r) → step s = .next t →
    t = { s with inputs := rest, env := t.env } ∧
    (∀ h i v, inp = .audioWrite h i v →
      t.env = { s.env with audio := t.env.audio } ∧
      Cells.read t.env.audio (handleIndex h i) = v ∧
      ∀ a, a ≠ handleIndex h i → Cells.read t.env.audio a = Cells.read s.env.audio a) ∧
    (∀ h samples, inp = .adcFill h samples →
      t.env = { s.env with adc := t.env.adc } ∧
      (∀ n, n < 320 → t.readAdc h n = samples.getD n (s.readAdc h n)) ∧
      ∀ a, (∀ n, n < 320 → a ≠ adcIndex h n) → Cells.read t.env.adc a = Cells.read s.env.adc a) ∧
    (∀ h i v, inp = .strWrite h i v →
      t.env = { s.env with str := t.env.str } ∧
      Cells.read t.env.str (handleIndex h i) = v ∧
      ∀ a, a ≠ handleIndex h i → Cells.read t.env.str a = Cells.read s.env.str a) ∧
    (∀ a b, inp = .driver a b → t.env = { s.env with drvStart := a, drvStop := b })
end

