-- ==== Sys2Proof/Laws/State.lean ====
section
/-! SUPPORT. One lemma per field per update of the state, each true by `rfl`, so that no proof unfolds a record update. -/

namespace Sys2Proof.Machine

/-! ## One channel of the tone engine -/

@[simp] theorem ToneEngine.ch_left (te : ToneEngine) : te.ch .left = te.ch0 := rfl
@[simp] theorem ToneEngine.ch_right (te : ToneEngine) : te.ch .right = te.ch1 := rfl
@[simp] theorem ToneEngine.setCh_left (te : ToneEngine) (v : ChannelInfo) : te.setCh .left v = { te with ch0 := v } := rfl
@[simp] theorem ToneEngine.setCh_right (te : ToneEngine) (v : ChannelInfo) : te.setCh .right v = { te with ch1 := v } := rfl
theorem ToneEngine.setCh_out (te : ToneEngine) (c : ChanId) (v : ChannelInfo) : (te.setCh c v).out = te.out := by
  cases c <;> rfl
theorem ToneEngine.setCh_ch (te : ToneEngine) (c : ChanId) (v : ChannelInfo) : (te.setCh c v).ch c = v := by
  cases c <;> rfl
theorem ToneEngine.setCh_ch_other (te : ToneEngine) (c d : ChanId) (v : ChannelInfo) (h : d ≠ c) :
    (te.setCh c v).ch d = te.ch d := by
  cases c <;> cases d <;> first | rfl | exact absurd rfl h
@[simp] theorem State.ch_eq (s : State) (c : ChanId) : s.ch c = s.te.ch c := rfl

/-! ## `State.setCh` -/

@[simp] theorem State.setCh_cfg (s : State) (c : ChanId) (v : ChannelInfo) : (s.setCh c v).cfg = s.cfg := rfl
@[simp] theorem State.setCh_te (s : State) (c : ChanId) (v : ChannelInfo) : (s.setCh c v).te = s.te.setCh c v := rfl
@[simp] theorem State.setCh_mr (s : State) (c : ChanId) (v : ChannelInfo) : (s.setCh c v).mr = s.mr := rfl
@[simp] theorem State.setCh_fatal (s : State) (c : ChanId) (v : ChannelInfo) : (s.setCh c v).fatal = s.fatal := rfl
@[simp] theorem State.setCh_log (s : State) (c : ChanId) (v : ChannelInfo) : (s.setCh c v).log = s.log := rfl
@[simp] theorem State.setCh_env (s : State) (c : ChanId) (v : ChannelInfo) : (s.setCh c v).env = s.env := rfl
@[simp] theorem State.setCh_ctx (s : State) (c : ChanId) (v : ChannelInfo) : (s.setCh c v).ctx = s.ctx := rfl
@[simp] theorem State.setCh_ret (s : State) (c : ChanId) (v : ChannelInfo) : (s.setCh c v).ret = s.ret := rfl
@[simp] theorem State.setCh_diag (s : State) (c : ChanId) (v : ChannelInfo) : (s.setCh c v).diag = s.diag := rfl
@[simp] theorem State.setCh_draws (s : State) (c : ChanId) (v : ChannelInfo) : (s.setCh c v).draws = s.draws := rfl
@[simp] theorem State.setCh_inputs (s : State) (c : ChanId) (v : ChannelInfo) : (s.setCh c v).inputs = s.inputs := rfl

/-! ## `State.writeOut` -/

@[simp] theorem State.writeOut_cfg (s : State) (h : Half) (p : Nat) (v : Sample) : (s.writeOut h p v).cfg = s.cfg := rfl
@[simp] theorem State.writeOut_te (s : State) (h : Half) (p : Nat) (v : Sample) : (s.writeOut h p v).te = { s.te with out := Cells.write s.te.out (outIndex s.cfg h p) v } := rfl
@[simp] theorem State.writeOut_mr (s : State) (h : Half) (p : Nat) (v : Sample) : (s.writeOut h p v).mr = s.mr := rfl
@[simp] theorem State.writeOut_fatal (s : State) (h : Half) (p : Nat) (v : Sample) : (s.writeOut h p v).fatal = s.fatal := rfl
@[simp] theorem State.writeOut_log (s : State) (h : Half) (p : Nat) (v : Sample) : (s.writeOut h p v).log = s.log := rfl
@[simp] theorem State.writeOut_env (s : State) (h : Half) (p : Nat) (v : Sample) : (s.writeOut h p v).env = s.env := rfl
@[simp] theorem State.writeOut_ctx (s : State) (h : Half) (p : Nat) (v : Sample) : (s.writeOut h p v).ctx = s.ctx := rfl
@[simp] theorem State.writeOut_ret (s : State) (h : Half) (p : Nat) (v : Sample) : (s.writeOut h p v).ret = s.ret := rfl
@[simp] theorem State.writeOut_diag (s : State) (h : Half) (p : Nat) (v : Sample) : (s.writeOut h p v).diag = s.diag := rfl
@[simp] theorem State.writeOut_draws (s : State) (h : Half) (p : Nat) (v : Sample) : (s.writeOut h p v).draws = s.draws := rfl
@[simp] theorem State.writeOut_inputs (s : State) (h : Half) (p : Nat) (v : Sample) : (s.writeOut h p v).inputs = s.inputs := rfl

/-! ## `State.setMr` -/

@[simp] theorem State.setMr_cfg (s : State) (v : Receiver) : (s.setMr v).cfg = s.cfg := rfl
@[simp] theorem State.setMr_te (s : State) (v : Receiver) : (s.setMr v).te = s.te := rfl
@[simp] theorem State.setMr_mr (s : State) (v : Receiver) : (s.setMr v).mr = v := rfl
@[simp] theorem State.setMr_fatal (s : State) (v : Receiver) : (s.setMr v).fatal = s.fatal := rfl
@[simp] theorem State.setMr_log (s : State) (v : Receiver) : (s.setMr v).log = s.log := rfl
@[simp] theorem State.setMr_env (s : State) (v : Receiver) : (s.setMr v).env = s.env := rfl
@[simp] theorem State.setMr_ctx (s : State) (v : Receiver) : (s.setMr v).ctx = s.ctx := rfl
@[simp] theorem State.setMr_ret (s : State) (v : Receiver) : (s.setMr v).ret = s.ret := rfl
@[simp] theorem State.setMr_diag (s : State) (v : Receiver) : (s.setMr v).diag = s.diag := rfl
@[simp] theorem State.setMr_draws (s : State) (v : Receiver) : (s.setMr v).draws = s.draws := rfl
@[simp] theorem State.setMr_inputs (s : State) (v : Receiver) : (s.setMr v).inputs = s.inputs := rfl

/-! ## `State.setMf` -/

@[simp] theorem State.setMf_cfg (s : State) (v : MfData) : (s.setMf v).cfg = s.cfg := rfl
@[simp] theorem State.setMf_te (s : State) (v : MfData) : (s.setMf v).te = s.te := rfl
@[simp] theorem State.setMf_mr (s : State) (v : MfData) : (s.setMf v).mr = { s.mr with mf := v } := rfl
@[simp] theorem State.setMf_fatal (s : State) (v : MfData) : (s.setMf v).fatal = s.fatal := rfl
@[simp] theorem State.setMf_log (s : State) (v : MfData) : (s.setMf v).log = s.log := rfl
@[simp] theorem State.setMf_env (s : State) (v : MfData) : (s.setMf v).env = s.env := rfl
@[simp] theorem State.setMf_ctx (s : State) (v : MfData) : (s.setMf v).ctx = s.ctx := rfl
@[simp] theorem State.setMf_ret (s : State) (v : MfData) : (s.setMf v).ret = s.ret := rfl
@[simp] theorem State.setMf_diag (s : State) (v : MfData) : (s.setMf v).diag = s.diag := rfl
@[simp] theorem State.setMf_draws (s : State) (v : MfData) : (s.setMf v).draws = s.draws := rfl
@[simp] theorem State.setMf_inputs (s : State) (v : MfData) : (s.setMf v).inputs = s.inputs := rfl

/-! ## `State.setSampling` -/

@[simp] theorem State.setSampling_cfg (s : State) (b : Bool) : (s.setSampling b).cfg = s.cfg := rfl
@[simp] theorem State.setSampling_te (s : State) (b : Bool) : (s.setSampling b).te = s.te := rfl
@[simp] theorem State.setSampling_mr (s : State) (b : Bool) : (s.setSampling b).mr = { s.mr with samplingOn := b } := rfl
@[simp] theorem State.setSampling_fatal (s : State) (b : Bool) : (s.setSampling b).fatal = s.fatal := rfl
@[simp] theorem State.setSampling_log (s : State) (b : Bool) : (s.setSampling b).log = s.log := rfl
@[simp] theorem State.setSampling_env (s : State) (b : Bool) : (s.setSampling b).env = s.env := rfl
@[simp] theorem State.setSampling_ctx (s : State) (b : Bool) : (s.setSampling b).ctx = s.ctx := rfl
@[simp] theorem State.setSampling_ret (s : State) (b : Bool) : (s.setSampling b).ret = s.ret := rfl
@[simp] theorem State.setSampling_diag (s : State) (b : Bool) : (s.setSampling b).diag = s.diag := rfl
@[simp] theorem State.setSampling_draws (s : State) (b : Bool) : (s.setSampling b).draws = s.draws := rfl
@[simp] theorem State.setSampling_inputs (s : State) (b : Bool) : (s.setSampling b).inputs = s.inputs := rfl

/-! ## `State.respond` -/

@[simp] theorem State.respond_cfg (s : State) (v : Ret) : (s.respond v).cfg = s.cfg := rfl
@[simp] theorem State.respond_te (s : State) (v : Ret) : (s.respond v).te = s.te := rfl
@[simp] theorem State.respond_mr (s : State) (v : Ret) : (s.respond v).mr = s.mr := rfl
@[simp] theorem State.respond_fatal (s : State) (v : Ret) : (s.respond v).fatal = s.fatal := rfl
@[simp] theorem State.respond_log (s : State) (v : Ret) : (s.respond v).log = s.log := rfl
@[simp] theorem State.respond_env (s : State) (v : Ret) : (s.respond v).env = s.env := rfl
@[simp] theorem State.respond_ctx (s : State) (v : Ret) : (s.respond v).ctx = s.ctx := rfl
@[simp] theorem State.respond_ret (s : State) (v : Ret) : (s.respond v).ret = v := rfl
@[simp] theorem State.respond_diag (s : State) (v : Ret) : (s.respond v).diag = none := rfl
@[simp] theorem State.respond_draws (s : State) (v : Ret) : (s.respond v).draws = s.draws := rfl
@[simp] theorem State.respond_inputs (s : State) (v : Ret) : (s.respond v).inputs = s.inputs := rfl

/-! ## `State.reject` -/

@[simp] theorem State.reject_cfg (s : State) (v : Ret) (k : ErrorKind) : (s.reject v k).cfg = s.cfg := rfl
@[simp] theorem State.reject_te (s : State) (v : Ret) (k : ErrorKind) : (s.reject v k).te = s.te := rfl
@[simp] theorem State.reject_mr (s : State) (v : Ret) (k : ErrorKind) : (s.reject v k).mr = s.mr := rfl
@[simp] theorem State.reject_fatal (s : State) (v : Ret) (k : ErrorKind) : (s.reject v k).fatal = s.fatal := rfl
@[simp] theorem State.reject_log (s : State) (v : Ret) (k : ErrorKind) : (s.reject v k).log = s.log := rfl
@[simp] theorem State.reject_env (s : State) (v : Ret) (k : ErrorKind) : (s.reject v k).env = s.env := rfl
@[simp] theorem State.reject_ctx (s : State) (v : Ret) (k : ErrorKind) : (s.reject v k).ctx = s.ctx := rfl
@[simp] theorem State.reject_ret (s : State) (v : Ret) (k : ErrorKind) : (s.reject v k).ret = v := rfl
@[simp] theorem State.reject_diag (s : State) (v : Ret) (k : ErrorKind) : (s.reject v k).diag = some k := rfl
@[simp] theorem State.reject_draws (s : State) (v : Ret) (k : ErrorKind) : (s.reject v k).draws = s.draws := rfl
@[simp] theorem State.reject_inputs (s : State) (v : Ret) (k : ErrorKind) : (s.reject v k).inputs = s.inputs := rfl

/-! ## `State.emit` -/

@[simp] theorem State.emit_cfg (s : State) (e : Event) : (s.emit e).cfg = s.cfg := rfl
@[simp] theorem State.emit_te (s : State) (e : Event) : (s.emit e).te = s.te := rfl
@[simp] theorem State.emit_mr (s : State) (e : Event) : (s.emit e).mr = s.mr := rfl
@[simp] theorem State.emit_fatal (s : State) (e : Event) : (s.emit e).fatal = s.fatal := rfl
@[simp] theorem State.emit_log (s : State) (e : Event) : (s.emit e).log = s.log ++ [e] := rfl
@[simp] theorem State.emit_env (s : State) (e : Event) : (s.emit e).env = s.env := rfl
@[simp] theorem State.emit_ctx (s : State) (e : Event) : (s.emit e).ctx = s.ctx := rfl
@[simp] theorem State.emit_ret (s : State) (e : Event) : (s.emit e).ret = s.ret := rfl
@[simp] theorem State.emit_diag (s : State) (e : Event) : (s.emit e).diag = s.diag := rfl
@[simp] theorem State.emit_draws (s : State) (e : Event) : (s.emit e).draws = s.draws := rfl
@[simp] theorem State.emit_inputs (s : State) (e : Event) : (s.emit e).inputs = s.inputs := rfl

/-! ## `State.emitAll` -/

@[simp] theorem State.emitAll_cfg (s : State) (es : List Event) : (s.emitAll es).cfg = s.cfg := rfl
@[simp] theorem State.emitAll_te (s : State) (es : List Event) : (s.emitAll es).te = s.te := rfl
@[simp] theorem State.emitAll_mr (s : State) (es : List Event) : (s.emitAll es).mr = s.mr := rfl
@[simp] theorem State.emitAll_fatal (s : State) (es : List Event) : (s.emitAll es).fatal = s.fatal := rfl
@[simp] theorem State.emitAll_log (s : State) (es : List Event) : (s.emitAll es).log = s.log ++ es := rfl
@[simp] theorem State.emitAll_env (s : State) (es : List Event) : (s.emitAll es).env = s.env := rfl
@[simp] theorem State.emitAll_ctx (s : State) (es : List Event) : (s.emitAll es).ctx = s.ctx := rfl
@[simp] theorem State.emitAll_ret (s : State) (es : List Event) : (s.emitAll es).ret = s.ret := rfl
@[simp] theorem State.emitAll_diag (s : State) (es : List Event) : (s.emitAll es).diag = s.diag := rfl
@[simp] theorem State.emitAll_draws (s : State) (es : List Event) : (s.emitAll es).draws = s.draws := rfl
@[simp] theorem State.emitAll_inputs (s : State) (es : List Event) : (s.emitAll es).inputs = s.inputs := rfl

/-! ## `State.accept` -/

@[simp] theorem State.accept_cfg (s : State) (r : Request) (rest : List Input) : (s.accept r rest).cfg = s.cfg := rfl
@[simp] theorem State.accept_te (s : State) (r : Request) (rest : List Input) : (s.accept r rest).te = s.te := rfl
@[simp] theorem State.accept_mr (s : State) (r : Request) (rest : List Input) : (s.accept r rest).mr = s.mr := rfl
@[simp] theorem State.accept_fatal (s : State) (r : Request) (rest : List Input) : (s.accept r rest).fatal = s.fatal := rfl
@[simp] theorem State.accept_log (s : State) (r : Request) (rest : List Input) : (s.accept r rest).log = s.log := rfl
@[simp] theorem State.accept_env (s : State) (r : Request) (rest : List Input) : (s.accept r rest).env = s.env := rfl
@[simp] theorem State.accept_ctx (s : State) (r : Request) (rest : List Input) : (s.accept r rest).ctx = r.ctx := rfl
@[simp] theorem State.accept_ret (s : State) (r : Request) (rest : List Input) : (s.accept r rest).ret = s.ret := rfl
@[simp] theorem State.accept_diag (s : State) (r : Request) (rest : List Input) : (s.accept r rest).diag = s.diag := rfl
@[simp] theorem State.accept_draws (s : State) (r : Request) (rest : List Input) : (s.accept r rest).draws = s.draws := rfl
@[simp] theorem State.accept_inputs (s : State) (r : Request) (rest : List Input) : (s.accept r rest).inputs = rest := rfl

/-! ## `adcFill` -/

@[simp] theorem adcFill_cfg (s : State) (h : Half) (xs : List Sample) : (adcFill s h xs).cfg = s.cfg := rfl
@[simp] theorem adcFill_te (s : State) (h : Half) (xs : List Sample) : (adcFill s h xs).te = s.te := rfl
@[simp] theorem adcFill_mr (s : State) (h : Half) (xs : List Sample) : (adcFill s h xs).mr = s.mr := rfl
@[simp] theorem adcFill_fatal (s : State) (h : Half) (xs : List Sample) : (adcFill s h xs).fatal = s.fatal := rfl
@[simp] theorem adcFill_log (s : State) (h : Half) (xs : List Sample) : (adcFill s h xs).log = s.log := rfl
@[simp] theorem adcFill_env (s : State) (h : Half) (xs : List Sample) : (adcFill s h xs).env = { s.env with adc := Cells.writeList s.env.adc (adcIndex h 0) (xs.take frameN) } := rfl
@[simp] theorem adcFill_ctx (s : State) (h : Half) (xs : List Sample) : (adcFill s h xs).ctx = s.ctx := rfl
@[simp] theorem adcFill_ret (s : State) (h : Half) (xs : List Sample) : (adcFill s h xs).ret = s.ret := rfl
@[simp] theorem adcFill_diag (s : State) (h : Half) (xs : List Sample) : (adcFill s h xs).diag = s.diag := rfl
@[simp] theorem adcFill_draws (s : State) (h : Half) (xs : List Sample) : (adcFill s h xs).draws = s.draws := rfl
@[simp] theorem adcFill_inputs (s : State) (h : Half) (xs : List Sample) : (adcFill s h xs).inputs = s.inputs := rfl

/-! ## `audioWrite` -/

@[simp] theorem audioWrite_cfg (s : State) (h : Handle) (i : Nat) (v : Sample) : (audioWrite s h i v).cfg = s.cfg := rfl
@[simp] theorem audioWrite_te (s : State) (h : Handle) (i : Nat) (v : Sample) : (audioWrite s h i v).te = s.te := rfl
@[simp] theorem audioWrite_mr (s : State) (h : Handle) (i : Nat) (v : Sample) : (audioWrite s h i v).mr = s.mr := rfl
@[simp] theorem audioWrite_fatal (s : State) (h : Handle) (i : Nat) (v : Sample) : (audioWrite s h i v).fatal = s.fatal := rfl
@[simp] theorem audioWrite_log (s : State) (h : Handle) (i : Nat) (v : Sample) : (audioWrite s h i v).log = s.log := rfl
@[simp] theorem audioWrite_env (s : State) (h : Handle) (i : Nat) (v : Sample) : (audioWrite s h i v).env = { s.env with audio := Cells.write s.env.audio (handleIndex h i) v } := rfl
@[simp] theorem audioWrite_ctx (s : State) (h : Handle) (i : Nat) (v : Sample) : (audioWrite s h i v).ctx = s.ctx := rfl
@[simp] theorem audioWrite_ret (s : State) (h : Handle) (i : Nat) (v : Sample) : (audioWrite s h i v).ret = s.ret := rfl
@[simp] theorem audioWrite_diag (s : State) (h : Handle) (i : Nat) (v : Sample) : (audioWrite s h i v).diag = s.diag := rfl
@[simp] theorem audioWrite_draws (s : State) (h : Handle) (i : Nat) (v : Sample) : (audioWrite s h i v).draws = s.draws := rfl
@[simp] theorem audioWrite_inputs (s : State) (h : Handle) (i : Nat) (v : Sample) : (audioWrite s h i v).inputs = s.inputs := rfl

/-! ## `strWrite` -/

@[simp] theorem strWrite_cfg (s : State) (h : Handle) (i : Nat) (v : Ascii) : (strWrite s h i v).cfg = s.cfg := rfl
@[simp] theorem strWrite_te (s : State) (h : Handle) (i : Nat) (v : Ascii) : (strWrite s h i v).te = s.te := rfl
@[simp] theorem strWrite_mr (s : State) (h : Handle) (i : Nat) (v : Ascii) : (strWrite s h i v).mr = s.mr := rfl
@[simp] theorem strWrite_fatal (s : State) (h : Handle) (i : Nat) (v : Ascii) : (strWrite s h i v).fatal = s.fatal := rfl
@[simp] theorem strWrite_log (s : State) (h : Handle) (i : Nat) (v : Ascii) : (strWrite s h i v).log = s.log := rfl
@[simp] theorem strWrite_env (s : State) (h : Handle) (i : Nat) (v : Ascii) : (strWrite s h i v).env = { s.env with str := Cells.write s.env.str (handleIndex h i) v } := rfl
@[simp] theorem strWrite_ctx (s : State) (h : Handle) (i : Nat) (v : Ascii) : (strWrite s h i v).ctx = s.ctx := rfl
@[simp] theorem strWrite_ret (s : State) (h : Handle) (i : Nat) (v : Ascii) : (strWrite s h i v).ret = s.ret := rfl
@[simp] theorem strWrite_diag (s : State) (h : Handle) (i : Nat) (v : Ascii) : (strWrite s h i v).diag = s.diag := rfl
@[simp] theorem strWrite_draws (s : State) (h : Handle) (i : Nat) (v : Ascii) : (strWrite s h i v).draws = s.draws := rfl
@[simp] theorem strWrite_inputs (s : State) (h : Handle) (i : Nat) (v : Ascii) : (strWrite s h i v).inputs = s.inputs := rfl

/-! ## `setDriver` -/

@[simp] theorem setDriver_cfg (s : State) (a b : DrvAnswer) : (setDriver s a b).cfg = s.cfg := rfl
@[simp] theorem setDriver_te (s : State) (a b : DrvAnswer) : (setDriver s a b).te = s.te := rfl
@[simp] theorem setDriver_mr (s : State) (a b : DrvAnswer) : (setDriver s a b).mr = s.mr := rfl
@[simp] theorem setDriver_fatal (s : State) (a b : DrvAnswer) : (setDriver s a b).fatal = s.fatal := rfl
@[simp] theorem setDriver_log (s : State) (a b : DrvAnswer) : (setDriver s a b).log = s.log := rfl
@[simp] theorem setDriver_env (s : State) (a b : DrvAnswer) : (setDriver s a b).env = { s.env with drvStart := a, drvStop := b } := rfl
@[simp] theorem setDriver_ctx (s : State) (a b : DrvAnswer) : (setDriver s a b).ctx = s.ctx := rfl
@[simp] theorem setDriver_ret (s : State) (a b : DrvAnswer) : (setDriver s a b).ret = s.ret := rfl
@[simp] theorem setDriver_diag (s : State) (a b : DrvAnswer) : (setDriver s a b).diag = s.diag := rfl
@[simp] theorem setDriver_draws (s : State) (a b : DrvAnswer) : (setDriver s a b).draws = s.draws := rfl
@[simp] theorem setDriver_inputs (s : State) (a b : DrvAnswer) : (setDriver s a b).inputs = s.inputs := rfl

/-! ## `State.withFetchWord` -/

@[simp] theorem State.withFetchWord_cfg (s : State) (n w : Nat) : (s.withFetchWord n w).cfg = s.cfg := rfl
@[simp] theorem State.withFetchWord_te (s : State) (n w : Nat) : (s.withFetchWord n w).te = s.te := rfl
@[simp] theorem State.withFetchWord_mr (s : State) (n w : Nat) : (s.withFetchWord n w).mr = s.mr := rfl
@[simp] theorem State.withFetchWord_fatal (s : State) (n w : Nat) : (s.withFetchWord n w).fatal = s.fatal := rfl
@[simp] theorem State.withFetchWord_log (s : State) (n w : Nat) : (s.withFetchWord n w).log = s.log := rfl
@[simp] theorem State.withFetchWord_env (s : State) (n w : Nat) : (s.withFetchWord n w).env = s.env := rfl
@[simp] theorem State.withFetchWord_ctx (s : State) (n w : Nat) : (s.withFetchWord n w).ctx = s.ctx := rfl
@[simp] theorem State.withFetchWord_ret (s : State) (n w : Nat) : (s.withFetchWord n w).ret = s.ret := rfl
@[simp] theorem State.withFetchWord_diag (s : State) (n w : Nat) : (s.withFetchWord n w).diag = s.diag := rfl
@[simp] theorem State.withFetchWord_draws (s : State) (n w : Nat) : (s.withFetchWord n w).draws = s.draws := rfl
@[simp] theorem State.withFetchWord_inputs (s : State) (n w : Nat) : (s.withFetchWord n w).inputs = .request (tableRequest n w) :: s.inputs := rfl

/-! ## The multiplexer's position -/

theorem tickPosition_cfg (h : Half) (p : Nat) (s : State) : (tickPosition h p s).cfg = s.cfg := rfl
theorem tickPosition_env (h : Half) (p : Nat) (s : State) : (tickPosition h p s).env = s.env := rfl
theorem tickPosition_mr (h : Half) (p : Nat) (s : State) : (tickPosition h p s).mr = s.mr := rfl
theorem tickPosition_fatal (h : Half) (p : Nat) (s : State) : (tickPosition h p s).fatal = s.fatal := rfl
theorem tickPosition_ctx (h : Half) (p : Nat) (s : State) : (tickPosition h p s).ctx = s.ctx := rfl
theorem tickPosition_ret (h : Half) (p : Nat) (s : State) : (tickPosition h p s).ret = s.ret := rfl
theorem tickPosition_diag (h : Half) (p : Nat) (s : State) : (tickPosition h p s).diag = s.diag := rfl
theorem tickPosition_draws (h : Half) (p : Nat) (s : State) : (tickPosition h p s).draws = s.draws := rfl
theorem tickPosition_inputs (h : Half) (p : Nat) (s : State) : (tickPosition h p s).inputs = s.inputs := rfl

/-! ## The decoder record -/

@[simp] theorem seizedMf_state (mf : MfData) (cb : Handle) (d : Word32) : (seizedMf mf cb d).state = .waitKp := rfl
@[simp] theorem seizedMf_timer (mf : MfData) (cb : Handle) (d : Word32) : (seizedMf mf cb d).timer = 0 := rfl
@[simp] theorem seizedMf_kpCount (mf : MfData) (cb : Handle) (d : Word32) : (seizedMf mf cb d).kpCount = 0 := rfl
@[simp] theorem seizedMf_digCount (mf : MfData) (cb : Handle) (d : Word32) : (seizedMf mf cb d).digCount = 0 := rfl
@[simp] theorem seizedMf_cand (mf : MfData) (cb : Handle) (d : Word32) : (seizedMf mf cb d).cand = 0 := rfl
@[simp] theorem seizedMf_pend (mf : MfData) (cb : Handle) (d : Word32) : (seizedMf mf cb d).pend = none := rfl
@[simp] theorem seizedMf_digits (mf : MfData) (cb : Handle) (d : Word32) : (seizedMf mf cb d).digits = mf.digits.set 0 0 := rfl
@[simp] theorem seizedMf_ndigits (mf : MfData) (cb : Handle) (d : Word32) : (seizedMf mf cb d).ndigits = 0 := rfl
@[simp] theorem seizedMf_error (mf : MfData) (cb : Handle) (d : Word32) : (seizedMf mf cb d).error = .ok := rfl
@[simp] theorem seizedMf_cb (mf : MfData) (cb : Handle) (d : Word32) : (seizedMf mf cb d).cb = some cb := rfl
@[simp] theorem seizedMf_desc (mf : MfData) (cb : Handle) (d : Word32) : (seizedMf mf cb d).desc = d := rfl
@[simp] theorem releasedMf_state (mf : MfData) : (releasedMf mf).state = .idle := rfl
@[simp] theorem releasedMf_timer (mf : MfData) : (releasedMf mf).timer = mf.timer := rfl
@[simp] theorem releasedMf_kpCount (mf : MfData) : (releasedMf mf).kpCount = mf.kpCount := rfl
@[simp] theorem releasedMf_digCount (mf : MfData) : (releasedMf mf).digCount = mf.digCount := rfl
@[simp] theorem releasedMf_cand (mf : MfData) : (releasedMf mf).cand = mf.cand := rfl
@[simp] theorem releasedMf_pend (mf : MfData) : (releasedMf mf).pend = mf.pend := rfl
@[simp] theorem releasedMf_digits (mf : MfData) : (releasedMf mf).digits = mf.digits := rfl
@[simp] theorem releasedMf_ndigits (mf : MfData) : (releasedMf mf).ndigits = mf.ndigits := rfl
@[simp] theorem releasedMf_error (mf : MfData) : (releasedMf mf).error = mf.error := rfl
@[simp] theorem releasedMf_cb (mf : MfData) : (releasedMf mf).cb = none := rfl
@[simp] theorem releasedMf_desc (mf : MfData) : (releasedMf mf).desc = 0 := rfl

/-! ## The filter bank leaves the decoder record alone -/

@[simp] theorem gzFrame_mf (cfg : Cfg) (raw : List Nat) (r : Receiver) : (gzFrame cfg raw r).mf = r.mf := rfl
@[simp] theorem gzFrame_samplingOn (cfg : Cfg) (raw : List Nat) (r : Receiver) : (gzFrame cfg raw r).samplingOn = r.samplingOn := rfl
@[simp] theorem runDetector_coeff (nm : Numerics) (frame : List Q) (g : GoertzelData) :
    (runDetector nm frame g).coeff = g.coeff := rfl

/-! ## The oscillator -/

@[simp] theorem ncoTick_freq (cfg : Cfg) (o : Osc) : (ncoTick cfg o).1.freq = o.freq := by
  unfold ncoTick; split <;> rfl
@[simp] theorem ncoTick_gain (cfg : Cfg) (o : Osc) : (ncoTick cfg o).1.gain = o.gain := by
  unfold ncoTick; split <;> rfl
@[simp] theorem ncoTick_tw (cfg : Cfg) (o : Osc) : (ncoTick cfg o).1.tw = o.tw := by
  unfold ncoTick; split <;> rfl

/-! ## The pair of a channel -/

@[simp] theorem pairTick_owned (cfg : Cfg) (ch : ChannelInfo) : (pairTick cfg ch).1.owned = ch.owned := rfl
@[simp] theorem pairTick_state (cfg : Cfg) (ch : ChannelInfo) : (pairTick cfg ch).1.state = ch.state := rfl
@[simp] theorem pairTick_digits (cfg : Cfg) (ch : ChannelInfo) : (pairTick cfg ch).1.digits = ch.digits := rfl
@[simp] theorem pairTick_dlen (cfg : Cfg) (ch : ChannelInfo) : (pairTick cfg ch).1.dlen = ch.dlen := rfl
@[simp] theorem pairTick_didx (cfg : Cfg) (ch : ChannelInfo) : (pairTick cfg ch).1.didx = ch.didx := rfl
@[simp] theorem pairTick_timer (cfg : Cfg) (ch : ChannelInfo) : (pairTick cfg ch).1.timer = ch.timer := rfl
@[simp] theorem pairTick_reload (cfg : Cfg) (ch : ChannelInfo) : (pairTick cfg ch).1.reload = ch.reload := rfl
@[simp] theorem pairTick_cb (cfg : Cfg) (ch : ChannelInfo) : (pairTick cfg ch).1.cb = ch.cb := rfl
@[simp] theorem pairTick_abuf (cfg : Cfg) (ch : ChannelInfo) : (pairTick cfg ch).1.abuf = ch.abuf := rfl
@[simp] theorem pairTick_alen (cfg : Cfg) (ch : ChannelInfo) : (pairTick cfg ch).1.alen = ch.alen := rfl
@[simp] theorem pairTick_aidx (cfg : Cfg) (ch : ChannelInfo) : (pairTick cfg ch).1.aidx = ch.aidx := rfl
@[simp] theorem pairTick_tone0 (cfg : Cfg) (ch : ChannelInfo) : (pairTick cfg ch).1.tone0 = (ncoTick cfg ch.tone0).1 := rfl
@[simp] theorem pairTick_tone1 (cfg : Cfg) (ch : ChannelInfo) : (pairTick cfg ch).1.tone1 = (ncoTick cfg ch.tone1).1 := rfl
@[simp] theorem loadPair_owned (ch : ChannelInfo) (f0 g0 f1 g1 : Q) : (loadPair ch f0 g0 f1 g1).owned = ch.owned := rfl
@[simp] theorem loadPair_state (ch : ChannelInfo) (f0 g0 f1 g1 : Q) : (loadPair ch f0 g0 f1 g1).state = ch.state := rfl
@[simp] theorem loadPair_digits (ch : ChannelInfo) (f0 g0 f1 g1 : Q) : (loadPair ch f0 g0 f1 g1).digits = ch.digits := rfl
@[simp] theorem loadPair_dlen (ch : ChannelInfo) (f0 g0 f1 g1 : Q) : (loadPair ch f0 g0 f1 g1).dlen = ch.dlen := rfl
@[simp] theorem loadPair_didx (ch : ChannelInfo) (f0 g0 f1 g1 : Q) : (loadPair ch f0 g0 f1 g1).didx = ch.didx := rfl
@[simp] theorem loadPair_timer (ch : ChannelInfo) (f0 g0 f1 g1 : Q) : (loadPair ch f0 g0 f1 g1).timer = ch.timer := rfl
@[simp] theorem loadPair_reload (ch : ChannelInfo) (f0 g0 f1 g1 : Q) : (loadPair ch f0 g0 f1 g1).reload = ch.reload := rfl
@[simp] theorem loadPair_cb (ch : ChannelInfo) (f0 g0 f1 g1 : Q) : (loadPair ch f0 g0 f1 g1).cb = ch.cb := rfl
@[simp] theorem loadPair_abuf (ch : ChannelInfo) (f0 g0 f1 g1 : Q) : (loadPair ch f0 g0 f1 g1).abuf = ch.abuf := rfl
@[simp] theorem loadPair_alen (ch : ChannelInfo) (f0 g0 f1 g1 : Q) : (loadPair ch f0 g0 f1 g1).alen = ch.alen := rfl
@[simp] theorem loadPair_aidx (ch : ChannelInfo) (f0 g0 f1 g1 : Q) : (loadPair ch f0 g0 f1 g1).aidx = ch.aidx := rfl
@[simp] theorem loadPair_tone0 (ch : ChannelInfo) (f0 g0 f1 g1 : Q) : (loadPair ch f0 g0 f1 g1).tone0 = ncoSet f0 g0 := rfl
@[simp] theorem loadPair_tone1 (ch : ChannelInfo) (f0 g0 f1 g1 : Q) : (loadPair ch f0 g0 f1 g1).tone1 = ncoSet f1 g1 := rfl

end Sys2Proof.Machine
end

