-- ==== Sys2Proof/Laws/Memory.lean ====
section
/-! SUPPORT. The laws of the address spaces: what a write does to a later read, and that every memory operation keeps the
canonical form (20_memory.md R60 to R68). -/

namespace Sys2Proof.Machine

/-! ## Reads after writes -/

theorem Cells.read_erase_same {w : Nat} (a : Nat) (m : Cells w) : Cells.read (Cells.erase a m) a = Cells.unlisted w := by
  induction m with
  | nil => rfl
  | cons e rest ih =>
    obtain ⟨b, x⟩ := e
    by_cases h : b = a <;> simp [Cells.erase, Cells.read, h, ih]

theorem Cells.read_erase_other {w : Nat} (a a' : Nat) (m : Cells w) (h : a' ≠ a) :
    Cells.read (Cells.erase a m) a' = Cells.read m a' := by
  induction m with
  | nil => rfl
  | cons e rest ih =>
    obtain ⟨b, x⟩ := e
    by_cases hb : b = a
    · subst hb; simp [Cells.erase, Cells.read, ih, h.symm]
    · simp [Cells.erase, Cells.read, hb, ih]

/-- An erased space lists the index nowhere. -/
theorem Cells.not_mem_erase {w : Nat} (a : Nat) (m : Cells w) : ∀ e ∈ Cells.erase a m, e.1 ≠ a := by
  induction m with
  | nil => simp [Cells.erase]
  | cons e rest ih =>
    obtain ⟨b, x⟩ := e
    by_cases h : b = a
    · simpa [Cells.erase, h] using ih
    · simp only [Cells.erase, h, if_false]
      intro e he
      rcases List.mem_cons.1 he with rfl | he
      · exact h
      · exact ih e he

theorem Cells.read_insert_same {w : Nat} (a : Nat) (v : BitVec w) (m : Cells w) (h : ∀ e ∈ m, e.1 ≠ a) :
    Cells.read (Cells.insert a v m) a = v := by
  induction m with
  | nil => simp [Cells.insert, Cells.read]
  | cons e rest ih =>
    obtain ⟨b, x⟩ := e
    by_cases hb : a < b
    · simp [Cells.insert, Cells.read, hb]
    · have hne : b ≠ a := h (b, x) (by simp)
      simp [Cells.insert, Cells.read, hb, hne, ih (fun e he => h e (by simp [he]))]

theorem Cells.read_insert_other {w : Nat} (a a' : Nat) (v : BitVec w) (m : Cells w) (h : a' ≠ a) :
    Cells.read (Cells.insert a v m) a' = Cells.read m a' := by
  induction m with
  | nil => simp [Cells.insert, Cells.read, h.symm]
  | cons e rest ih =>
    obtain ⟨b, x⟩ := e
    by_cases hb : a < b
    · simp [Cells.insert, Cells.read, hb, h.symm]
    · simp [Cells.insert, Cells.read, hb, ih]

/-- A read after a write to the same element gives the value written. -/
@[simp] theorem Cells.read_write_same {w : Nat} (m : Cells w) (a : Nat) (v : BitVec w) :
    Cells.read (Cells.write m a v) a = v := by
  unfold Cells.write
  split
  · next h => rw [Cells.read_erase_same, h]
  · exact Cells.read_insert_same a v _ (Cells.not_mem_erase a m)

/-- A write leaves every other element alone. -/
theorem Cells.read_write_other {w : Nat} (m : Cells w) (a a' : Nat) (v : BitVec w) (h : a' ≠ a) :
    Cells.read (Cells.write m a v) a' = Cells.read m a' := by
  unfold Cells.write
  split
  · exact Cells.read_erase_other a a' m h
  · rw [Cells.read_insert_other a a' v _ h, Cells.read_erase_other a a' m h]

/-- Writing a list leaves the elements outside its range alone. -/
theorem Cells.read_writeList_outside {w : Nat} (vs : List (BitVec w)) (m : Cells w) (a a' : Nat)
    (h : a' < a ∨ a + vs.length ≤ a') : Cells.read (Cells.writeList m a vs) a' = Cells.read m a' := by
  induction vs generalizing m a with
  | nil => rfl
  | cons v vs ih =>
    simp only [List.length_cons] at h
    rw [Cells.writeList, ih _ _ (by omega), Cells.read_write_other _ _ _ _ (by omega)]

/-- Writing a list puts its `k`-th value at the `k`-th index. -/
theorem Cells.read_writeList_inside {w : Nat} (vs : List (BitVec w)) (m : Cells w) (a k : Nat) (h : k < vs.length) :
    Cells.read (Cells.writeList m a vs) (a + k) = vs[k] := by
  induction vs generalizing m a k with
  | nil => simp at h
  | cons v vs ih =>
    rw [Cells.writeList]
    match k with
    | 0 => rw [Cells.read_writeList_outside _ _ _ _ (by omega), Nat.add_zero, Cells.read_write_same]; rfl
    | k + 1 =>
      have := ih (Cells.write m a v) (a + 1) k (by simpa using h)
      rw [show a + (k + 1) = a + 1 + k by omega, this]; rfl

/-! ## Canonical form -/

theorem Cells.wfFrom_mono {w : Nat} (lo lo' : Nat) (m : Cells w) (hlo : lo' ≤ lo) (h : Cells.wfFrom lo m = true) :
    Cells.wfFrom lo' m = true := by
  cases m with
  | nil => rfl
  | cons e rest =>
    obtain ⟨b, x⟩ := e
    simp only [Cells.wfFrom, Bool.and_eq_true, decide_eq_true_eq] at h ⊢
    exact ⟨⟨by omega, h.1.2⟩, h.2⟩

theorem Cells.wfFrom_erase {w : Nat} (a lo : Nat) (m : Cells w) (h : Cells.wfFrom lo m = true) :
    Cells.wfFrom lo (Cells.erase a m) = true := by
  induction m generalizing lo with
  | nil => rfl
  | cons e rest ih =>
    obtain ⟨b, x⟩ := e
    simp only [Cells.wfFrom, Bool.and_eq_true, decide_eq_true_eq] at h
    by_cases hb : b = a
    · simp only [Cells.erase, hb, if_true]
      exact Cells.wfFrom_mono (b + 1) lo _ (by omega) (ih _ h.2)
    · simp only [Cells.erase, hb, if_false, Cells.wfFrom, Bool.and_eq_true, decide_eq_true_eq]
      exact ⟨h.1, ih _ h.2⟩

theorem Cells.wfFrom_insert {w : Nat} (a lo : Nat) (v : BitVec w) (m : Cells w) (hv : v ≠ Cells.unlisted w) (ha : lo ≤ a)
    (hm : ∀ e ∈ m, e.1 ≠ a) (h : Cells.wfFrom lo m = true) : Cells.wfFrom lo (Cells.insert a v m) = true := by
  induction m generalizing lo with
  | nil => simp [Cells.insert, Cells.wfFrom, ha, hv]
  | cons e rest ih =>
    obtain ⟨b, x⟩ := e
    simp only [Cells.wfFrom, Bool.and_eq_true, decide_eq_true_eq] at h
    by_cases hb : a < b
    · simp only [Cells.insert, hb, if_true, Cells.wfFrom, Bool.and_eq_true, decide_eq_true_eq]
      exact ⟨⟨ha, hv⟩, ⟨by omega, h.1.2⟩, h.2⟩
    · have hne : b ≠ a := hm (b, x) (by simp)
      simp only [Cells.insert, hb, if_false, Cells.wfFrom, Bool.and_eq_true, decide_eq_true_eq]
      exact ⟨h.1, ih _ (by omega) (fun e he => hm e (by simp [he])) h.2⟩

/-- A write keeps the canonical form. -/
theorem Cells.wf_write {w : Nat} (m : Cells w) (a : Nat) (v : BitVec w) (h : Cells.wf m = true) :
    Cells.wf (Cells.write m a v) = true := by
  unfold Cells.wf Cells.write at *
  split
  · exact Cells.wfFrom_erase a 0 m h
  · next hv => exact Cells.wfFrom_insert a 0 v _ hv (Nat.zero_le _) (Cells.not_mem_erase a m) (Cells.wfFrom_erase a 0 m h)

/-- Writing a list keeps the canonical form. -/
theorem Cells.wf_writeList {w : Nat} (vs : List (BitVec w)) (m : Cells w) (a : Nat) (h : Cells.wf m = true) :
    Cells.wf (Cells.writeList m a vs) = true := by
  induction vs generalizing m a with
  | nil => exact h
  | cons v vs ih => exact ih _ _ (Cells.wf_write m a v h)

/-- A space that is canonical above an index reads as unlisted below it. -/
theorem Cells.read_below {w : Nat} (m : Cells w) (lo a : Nat) (h : Cells.wfFrom lo m = true) (ha : a < lo) :
    Cells.read m a = Cells.unlisted w := by
  induction m generalizing lo with
  | nil => rfl
  | cons e rest ih =>
    obtain ⟨b, x⟩ := e
    simp only [Cells.wfFrom, Bool.and_eq_true, decide_eq_true_eq] at h
    have hne : b ≠ a := by omega
    simp only [Cells.read, hne, if_false]
    exact ih (b + 1) h.2 (by omega)

/-- The memory of the machine after any reset is canonical. -/
theorem State.memWf_init (cfg : Cfg) : (State.init cfg).memWf = true := rfl

/-- The memory at reset is canonical. -/
theorem State.memWf_reset : State.reset.memWf = true := rfl

/-! ## The state's memory operations -/

theorem State.memWf_iff (s : State) : s.memWf = true ↔
    Cells.wf s.te.out = true ∧ Cells.wf s.env.adc = true ∧ Cells.wf s.env.audio = true ∧ Cells.wf s.env.str = true := by
  simp [State.memWf, Bool.and_eq_true, and_assoc]

theorem State.memWf_writeOut (s : State) (h : Half) (p : Nat) (v : Sample) (hs : s.memWf = true) :
    (s.writeOut h p v).memWf = true := by
  rw [State.memWf_iff] at *
  exact ⟨Cells.wf_write _ _ _ hs.1, hs.2⟩

theorem memWf_adcFill (s : State) (h : Half) (xs : List Sample) (hs : s.memWf = true) : (adcFill s h xs).memWf = true := by
  rw [State.memWf_iff] at *
  exact ⟨hs.1, Cells.wf_writeList _ _ _ hs.2.1, hs.2.2⟩

theorem memWf_audioWrite (s : State) (h : Handle) (i : Nat) (v : Sample) (hs : s.memWf = true) :
    (audioWrite s h i v).memWf = true := by
  rw [State.memWf_iff] at *
  exact ⟨hs.1, hs.2.1, Cells.wf_write _ _ _ hs.2.2.1, hs.2.2.2⟩

theorem memWf_strWrite (s : State) (h : Handle) (i : Nat) (c : Ascii) (hs : s.memWf = true) :
    (strWrite s h i c).memWf = true := by
  rw [State.memWf_iff] at *
  exact ⟨hs.1, hs.2.1, hs.2.2.1, Cells.wf_write _ _ _ hs.2.2.2⟩

theorem State.memWf_setCh (s : State) (c : ChanId) (v : ChannelInfo) (hs : s.memWf = true) : (s.setCh c v).memWf = true := by
  rw [State.memWf_iff] at *
  exact ⟨by rw [State.setCh_te, ToneEngine.setCh_out]; exact hs.1, hs.2⟩

theorem memWf_tickPosition (h : Half) (p : Nat) (s : State) (hs : s.memWf = true) : (tickPosition h p s).memWf = true :=
  State.memWf_writeOut _ _ _ _ (State.memWf_setCh s _ _ hs)

theorem memWf_fillFrom (h : Half) (n p : Nat) (s : State) (hs : s.memWf = true) : (fillFrom h n p s).memWf = true := by
  induction n generalizing p s with
  | zero => exact hs
  | succ n ih => exact ih _ _ (memWf_tickPosition h p s hs)

end Sys2Proof.Machine
end

