-- ==== Sys2Proof/Laws/Ops.lean ====
section
/-! SUPPORT. One lemma per shared operation that says once everything it can do; later proofs cite it and do not unfold the
operation. -/

namespace Sys2Proof.Machine

/-! ## Who may issue what (R281) -/

/-- What the admission of a tone-engine command can do. -/
theorem toneCommand_cases (s : State) (k : Host.Outcome State Fault Refusal) :
    ((s.ctx = .task ∨ s.ctx = .mfCallback) ∧ toneCommand s k = k) ∨
    (s.ctx = .toneCallback ∧ toneCommand s k = .refused .commandInToneCallback) ∨
    ((s.ctx = .outSignal ∨ s.ctx = .adcSignal) ∧ toneCommand s k = .refused .wrongContext) := by
  unfold toneCommand; cases s.ctx <;> simp

/-- A tone-engine command that has a next state is admitted, and the state is its body's. -/
theorem toneCommand_next {s t : State} {k : Host.Outcome State Fault Refusal} (h : toneCommand s k = .next t) :
    (s.ctx = .task ∨ s.ctx = .mfCallback) ∧ k = .next t := by
  unfold toneCommand at h; split at h <;> simp_all

/-- What the admission of a receiver command can do. -/
theorem receiverCommand_cases (s : State) (k : Host.Outcome State Fault Refusal) :
    (s.ctx = .task ∧ receiverCommand s k = k) ∨
    (s.ctx = .mfCallback ∧ receiverCommand s k = .fault .deadlock) ∨
    (s.ctx = .toneCallback ∧ receiverCommand s k = .refused .commandInToneCallback) ∨
    ((s.ctx = .outSignal ∨ s.ctx = .adcSignal) ∧ receiverCommand s k = .refused .wrongContext) := by
  unfold receiverCommand; cases s.ctx <;> simp

/-- A receiver command that has a next state comes from task context, and the state is its body's. -/
theorem receiverCommand_next {s t : State} {k : Host.Outcome State Fault Refusal} (h : receiverCommand s k = .next t) :
    s.ctx = .task ∧ k = .next t := by
  unfold receiverCommand at h; split at h <;> simp_all

/-- What the admission of an event can do. -/
theorem hardwareEvent_cases (c : Ctx) (s : State) (k : Host.Outcome State Fault Refusal) :
    (s.ctx = c ∧ hardwareEvent c s k = k) ∨ (s.ctx ≠ c ∧ hardwareEvent c s k = .refused .wrongContext) := by
  unfold hardwareEvent; by_cases h : s.ctx = c <;> simp [h]

/-- An event that has a next state comes from its own signal, and the state is its body's. -/
theorem hardwareEvent_next {c : Ctx} {s t : State} {k : Host.Outcome State Fault Refusal}
    (h : hardwareEvent c s k = .next t) : s.ctx = c ∧ k = .next t := by
  unfold hardwareEvent at h; split at h <;> simp_all

/-! ## Operand forms -/

/-- What an id can name (R83). -/
theorem chanOf_eq_some (id : BitVec 4) (c : ChanId) : chanOf id = some c ↔ id = c.id := by
  revert id c
  have h : ∀ (id : BitVec 4), ∀ c ∈ [ChanId.left, ChanId.right], (chanOf id = some c ↔ id = c.id) := by decide
  intro id c
  exact h id c (by cases c <;> simp)

/-- `valid_id`: the id names an owned channel (R170). -/
theorem validId_eq_some (s : State) (id : BitVec 4) (c : ChanId) :
    validId s id = some c ↔ id = c.id ∧ (s.te.ch c).owned = true := by
  unfold validId
  split
  · next d hd =>
    have hid := (chanOf_eq_some id d).1 hd
    constructor
    · intro h
      split at h
      · next ho => cases h; exact ⟨hid, ho⟩
      · cases h
    · rintro ⟨h, ho⟩
      have hdc : d = c := by
        have := (chanOf_eq_some id c).2 h
        rw [hd] at this; exact Option.some.inj this
      subst hdc
      simp only [State.ch_eq, ho, if_true]
  · next hd =>
    constructor
    · intro h; cases h
    · rintro ⟨h, -⟩
      have := (chanOf_eq_some id c).2 h
      rw [hd] at this; cases this

/-- What a command with an id can do: run on the channel the id names, or fail with 0 (R170). -/
theorem withChannel_cases (s : State) (id : BitVec 4) (k : ChanId → Host.Outcome State Fault Refusal) :
    (∃ c : ChanId, id = c.id ∧ (s.te.ch c).owned = true ∧ withChannel s id k = k c) ∨
    ((∀ c : ChanId, id = c.id → (s.te.ch c).owned = false) ∧
      withChannel s id k = .next (s.reject (.bool false) .invalidChannel)) := by
  unfold withChannel
  cases hv : validId s id with
  | some c => exact .inl ⟨c, ((validId_eq_some s id c).1 hv).1, ((validId_eq_some s id c).1 hv).2, rfl⟩
  | none =>
    refine .inr ⟨fun c hc => ?_, rfl⟩
    cases ho : (s.te.ch c).owned with
    | false => rfl
    | true => rw [(validId_eq_some s id c).2 ⟨hc, ho⟩] at hv; cases hv

/-- A half index operand is one of the two halves or is refused (R67, R83). -/
theorem halfOf_cases (h : BitVec 4) :
    (h = 0 ∧ halfOf h = some .first) ∨ (h = 1 ∧ halfOf h = some .second) ∨ (2 ≤ h.toNat ∧ halfOf h = none) := by
  revert h; decide

/-- What an event with a half index can do (R67, R91 (c)). -/
theorem withHalf_cases (h : BitVec 4) (k : Half → Host.Outcome State Fault Refusal) :
    (∃ half, halfOf h = some half ∧ withHalf h k = k half) ∨
    (2 ≤ h.toNat ∧ withHalf h k = .refused .badHalfIndex) := by
  unfold withHalf
  rcases halfOf_cases h with ⟨-, e⟩ | ⟨-, e⟩ | ⟨h2, e⟩ <;> simp [e]
  exact h2

/-- A handle is none exactly when the word is 0 (R89). -/
theorem handleOf_zero : handleOf 0 = none := rfl

theorem handleOf_pos {w : Word32} (h : w ≠ 0) : handleOf w = some w := if_neg h

/-- The kinds of a call-progress tone (R83, R173). -/
theorem cptHead_cases (kind : BitVec 4) :
    (kind = 0 ∧ cptHead kind = some .genDialTone) ∨ (kind = 1 ∧ cptHead kind = some .genBusyTone) ∨
    (kind = 2 ∧ cptHead kind = some .genCongestionTone) ∨ (kind = 3 ∧ cptHead kind = some .genRingingTone) ∨
    (4 ≤ kind.toNat ∧ cptHead kind = none) := by
  revert kind; decide

/-- The fatal state (R279): a next state with the flag set, returning nothing. -/
theorem raiseFatal_eq (s : State) (k : ErrorKind) :
    raiseFatal s k = .next { s with fatal := true, ret := .nothing, diag := some k } := rfl

/-! ## The tick operations -/

/-- What a tone-end tick does (R123). -/
theorem toneEndTick_cases (cfg : Cfg) (ch : ChannelInfo) (n : ChState) (t : Nat) :
    (ch.timer ≠ 0 ∧
      toneEndTick cfg ch n t = tickOf { (pairTick cfg ch).1 with timer := ch.timer - 1 } (pairTick cfg ch).2) ∨
    (ch.timer = 0 ∧ (pairTick cfg ch).2.toInt.natAbs ≤ cfg.zcThreshold ∧
      toneEndTick cfg ch n t = tickOf { (pairTick cfg ch).1 with timer := t, state := n } (pairTick cfg ch).2) ∨
    (ch.timer = 0 ∧ cfg.zcThreshold < (pairTick cfg ch).2.toInt.natAbs ∧
      toneEndTick cfg ch n t = tickOf (pairTick cfg ch).1 (pairTick cfg ch).2) := by
  unfold toneEndTick
  by_cases h : ch.timer = 0
  · by_cases hz : (pairTick cfg ch).2.toInt.natAbs ≤ cfg.zcThreshold
    · exact .inr (.inl ⟨h, hz, by simp [h, hz]⟩)
    · exact .inr (.inr ⟨h, by omega, by simp [h, hz]⟩)
  · exact .inl ⟨h, by simp [h]⟩

/-- What a silence tick does (R124). -/
theorem silenceTick_cases (ch : ChannelInfo) (f : ChannelInfo → ChannelInfo) :
    (ch.timer ≠ 0 ∧ silenceTick ch f = tickOf { ch with timer := ch.timer - 1 } 0) ∨
    (ch.timer = 0 ∧ silenceTick ch f = tickOf (f ch) 0) := by
  unfold silenceTick
  by_cases h : ch.timer = 0
  · exact .inr ⟨h, by simp [h]⟩
  · exact .inl ⟨h, by simp [h]⟩

/-- What an outpulsing head does (R136, R139). -/
theorem sendHead_cases (cfg : Cfg) (c : ChanId) (ch : ChannelInfo) (f : DigitCode → ChannelInfo → ChannelInfo) :
    (ch.dlen = 0 ∧ sendHead cfg c ch f =
      { ch := { ch with state := .idle }, sample := 0, events := if cfg.emptyAbortCallback then complete c ch else [] }) ∨
    (ch.dlen ≠ 0 ∧ ch.dlen ≤ ch.didx ∧
      sendHead cfg c ch f = { ch := { ch with state := .idle }, sample := 0, events := complete c ch }) ∨
    (ch.didx < ch.dlen ∧
      sendHead cfg c ch f =
        tickOf (f (ch.digits.getD ch.didx Config.unlistedDigit) { ch with didx := ch.didx + 1 }) 0) := by
  unfold sendHead
  by_cases h : ch.dlen = 0
  · exact .inl ⟨h, by simp [h]⟩
  · by_cases h' : ch.dlen ≤ ch.didx
    · exact .inr (.inl ⟨h, h', by simp [h, h']⟩)
    · exact .inr (.inr ⟨by omega, by simp [h, h']⟩)

/-- At most one completion event per tick (R125). -/
theorem complete_length (c : ChanId) (ch : ChannelInfo) : (complete c ch).length ≤ 1 := by
  unfold complete; cases ch.cb <;> simp

/-! ## The oscillator -/

/-- A component of frequency 0 gives 0 and does not move (R106). -/
theorem ncoTick_silent (cfg : Cfg) (o : Osc) (h : o.freq = 0) : ncoTick cfg o = (o, 0) := by simp [ncoTick, h]

/-- A component that sounds advances by its tuning word (R105). -/
theorem ncoTick_phase (cfg : Cfg) (o : Osc) (h : o.freq ≠ 0) : (ncoTick cfg o).1.phase = o.phase + o.tw := by
  simp [ncoTick, h]

/-- A value that fits 16 bits is held exactly (R107, R108). -/
theorem hold16_toInt (x : Int) (h : -32768 ≤ x ∧ x ≤ 32767) : (hold16 x).toInt = x := by
  unfold hold16
  rw [if_pos h, BitVec.toInt_ofInt]
  have := h.1; have := h.2
  simp only [Int.bmod]; omega

/-- A tuning word that fits 16 bits is held exactly (R102). -/
theorem tuningWord_toNat (f : Q) (h : 0 ≤ ncoTw f ∧ ncoTw f ≤ 65535) : ((tuningWord f).toNat : Int) = ncoTw f := by
  unfold tuningWord
  rw [if_pos h, BitVec.toNat_ofInt]
  have := h.1; have := h.2
  omega

/-! ## The decoder -/

/-- What an append does (R223). -/
theorem mfAppend_cases (cfg : Cfg) (c : Ascii) (mf : MfData) :
    (mf.ndigits < cfg.mfMaxDigits ∧ mfAppend cfg c mf =
      { mf with digits := (mf.digits.set mf.ndigits c).set (mf.ndigits + 1) 0, ndigits := mf.ndigits + 1 }) ∨
    (cfg.mfMaxDigits ≤ mf.ndigits ∧ mfAppend cfg c mf = mf) := by
  unfold mfAppend
  by_cases h : mf.ndigits < cfg.mfMaxDigits
  · exact .inl ⟨h, by simp [h]⟩
  · exact .inr ⟨by omega, by simp [h]⟩

/-- What one frame of the interdigit timer does (R224). -/
theorem runTimer_cases (cfg : Cfg) (mf : MfData) :
    (cfg.mfInterdigitTimeout ≤ mf.timer + 1 ∧
      runTimer cfg mf = { mf with timer := mf.timer + 1, state := .timeout }) ∨
    (mf.timer + 1 < cfg.mfInterdigitTimeout ∧ runTimer cfg mf = { mf with timer := mf.timer + 1 }) := by
  unfold runTimer
  by_cases h : cfg.mfInterdigitTimeout ≤ mf.timer + 1
  · exact .inl ⟨h, by simp [h]⟩
  · exact .inr ⟨by omega, by simp [h]⟩

/-- The chaining of the transient states (R230): a timeout and a terminator end in `WaitRelease` with one event, anything else is
left alone. -/
theorem mfdChain_cases (mf : MfData) :
    (mf.state = .timeout ∧ mfdDone (mfdTimeout mf) =
      ({ mf with error := .timeout, state := .waitRelease },
        [.mfDone mf.cb .timeout mf.ndigits (mf.digits.take mf.ndigits)])) ∨
    (mf.state = .done ∧ mfdDone (mfdTimeout mf) =
      ({ mf with state := .waitRelease }, [.mfDone mf.cb mf.error mf.ndigits (mf.digits.take mf.ndigits)])) ∨
    (mf.state ≠ .timeout ∧ mf.state ≠ .done ∧ mfdDone (mfdTimeout mf) = (mf, [])) := by
  unfold mfdTimeout
  by_cases h : mf.state = .timeout
  · exact .inl ⟨h, by simp [h, mfdDone, doneEvent]⟩
  · by_cases h' : mf.state = .done
    · exact .inr (.inl ⟨h', by simp [h', mfdDone, doneEvent]⟩)
    · exact .inr (.inr ⟨h, h', by simp [h, h', mfdDone]⟩)

/-- A descriptor draw is never 0 (R251). -/
theorem drawDescriptor_ne_zero (n : Nat) : drawDescriptor n ≠ 0 := by
  have h := (Config.descriptorDraw n).isLt
  intro e
  have := congrArg BitVec.toNat e
  simp [drawDescriptor, BitVec.toNat_ofNat] at this
  omega

/-! ## The frame -/

theorem rawFrom_length (s : State) (h : Half) (n i : Nat) : (rawFrom s h n i).length = n := by
  induction n generalizing i with
  | zero => rfl
  | succ n ih => simp [rawFrom, ih]

theorem rawFrame_length (s : State) (h : Half) : (rawFrame s h).length = frameN := rawFrom_length s h frameN 0

theorem rawFrom_getElem (s : State) (h : Half) (n i k : Nat) (hk : k < (rawFrom s h n i).length) :
    (rawFrom s h n i)[k] = (s.readAdc h (i + k)).toNat := by
  induction n generalizing i k with
  | zero => simp [rawFrom] at hk
  | succ n ih =>
    match k with
    | 0 => rfl
    | k + 1 =>
      have := ih (i + 1) k (by simpa [rawFrom] using hk)
      simpa [rawFrom, Nat.add_assoc, Nat.add_comm 1 k] using this

theorem correctedFrame_length (cfg : Cfg) (raw : List Nat) : (correctedFrame cfg raw).length = raw.length := by
  simp [correctedFrame, removeDc]

/-! ## The filter bank -/

/-- The reference arithmetic is the exact one (R200). -/
@[simp] theorem numAdd_exact (a b : Q) : numAdd .exact a b = a + b := rfl
@[simp] theorem numSub_exact (a b : Q) : numSub .exact a b = a - b := rfl
@[simp] theorem numMul_exact (a b : Q) : numMul .exact a b = a * b := rfl
@[simp] theorem numDiv_exact (a b : Q) : numDiv .exact a b = a / b := rfl

@[simp] theorem numAbs_exact (a : Q) : numAbs .exact a = |a| := by
  unfold numAbs
  split
  · next h => exact (abs_of_nonneg h).symm
  · next h => rw [abs_of_neg (not_le.1 h)]; simp

/-- In exact arithmetic normalisation inverts the signal (R203). -/
theorem normalise_exact (cfg : Cfg) (x : Nat) (h : cfg.numerics = .exact) :
    normalise cfg x = ((cfg.adcCenter : Q) - x) / cfg.adcCenter := by
  rw [normalise, h, numDiv_exact, numSub_exact, div_neg, ← neg_div, neg_sub]

/-- The recurrence over one more sample (R205). -/
theorem recur_append (nm : Numerics) (c q1 q2 : Q) (xs : List Q) (x : Q) :
    recur nm c q1 q2 (xs ++ [x]) =
      (numAdd nm (numSub nm (numMul nm c (recur nm c q1 q2 xs).1) (recur nm c q1 q2 xs).2) x, (recur nm c q1 q2 xs).1) := by
  induction xs generalizing q1 q2 with
  | nil => rfl
  | cons y ys ih => exact ih _ _

/-! ## The port -/

/-- What the port presents, by the first input. -/
theorem fetch_nil (s : State) (h : s.inputs = []) : fetch s = .waits := by simp [fetch, h]

theorem fetch_request (s : State) (r : Request) (rest : List Input) (i : Instr) (h : s.inputs = .request r :: rest)
    (hd : decodeRequest r.header r.operands = .ok i) : fetch s = .instr i (s.accept r rest) := by
  simp [fetch, h, hd]

theorem fetch_bad (s : State) (r : Request) (rest : List Input) (e : DecodeError) (h : s.inputs = .request r :: rest)
    (hd : decodeRequest r.header r.operands = .error e) : fetch s = .bad e := by
  simp [fetch, h, hd]

/-- What a step does: halted, ill-configured, waiting, an instruction, words that spell none, or the environment. -/
theorem step_cases (s : State) :
    (s.fatal = true ∧ step s = .fault .fatalHalt) ∨
    (s.fatal = false ∧ Cfg.wellFormed s.cfg = false ∧ step s = .refused .illFormedConfig) ∨
    (s.fatal = false ∧ Cfg.wellFormed s.cfg = true ∧
      ((fetch s = .waits ∧ step s = .next s) ∨ (∃ i t, fetch s = .instr i t ∧ step s = exec i t) ∨
        (∃ e, fetch s = .bad e ∧ step s = .refused (.invalidCommand e)) ∨
        (∃ t, fetch s = .environment t ∧ step s = .next t))) := by
  unfold step
  cases hf : s.fatal with
  | true => exact .inl ⟨rfl, by simp⟩
  | false =>
    cases hw : Cfg.wellFormed s.cfg with
    | false => exact .inr (.inl ⟨rfl, rfl, by simp⟩)
    | true =>
      refine .inr (.inr ⟨rfl, rfl, ?_⟩)
      cases he : fetch s with
      | waits => exact .inl ⟨rfl, by simp⟩
      | instr i t => exact .inr (.inl ⟨i, t, rfl, by simp⟩)
      | bad e => exact .inr (.inr (.inl ⟨e, rfl, by simp⟩))
      | environment t => exact .inr (.inr (.inr ⟨t, rfl, by simp⟩))

end Sys2Proof.Machine
end

