-- ==== Sys2Proof/Laws/PerInstr.lean ====
section
/-! SUPPORT. Statements about every instruction as syntax, one lemma per constructor. -/

namespace Sys2Proof.Laws

/-- The number of operand words an instruction is encoded with is the function of `op` alone that R89 and R90 give. -/
def EncodedLength.Statement (i : Instr) : Prop := (encode i).2.length = operandCount (opOf (encode i).1)

/-- A header built from an `op` has that `op` (R89). -/
theorem opOf_headerWord (op : BitVec 8) (id arg : BitVec 4) : opOf (headerWord op id arg) = op := by
  have key : ∀ x : BitVec (8 + 4 + 4), x = (op ++ id) ++ arg → x.extractLsb' 8 8 = op := by
    rintro x rfl
    ext k hk
    have h1 : ¬ 8 + k < 4 := by omega
    have h2 : ¬ 8 + k - 4 < 4 := by omega
    have h3 : 8 + k - 4 - 4 = k := by omega
    rw [BitVec.getElem_extractLsb', BitVec.getLsbD_append, BitVec.getLsbD_append]
    simp only [h1, h2, h3, if_false, BitVec.getLsbD_eq_getElem hk]
  exact key _ rfl

theorem EncodedLength.tsSeize : EncodedLength.Statement .tsSeize := by
  simp only [EncodedLength.Statement, encode, opOf_headerWord]; rfl
theorem EncodedLength.tsRelease (id : BitVec 4) : EncodedLength.Statement (.tsRelease id) := by
  simp only [EncodedLength.Statement, encode, opOf_headerWord]; rfl
theorem EncodedLength.tsCpt (id kind : BitVec 4) : EncodedLength.Statement (.tsCpt id kind) := by
  simp only [EncodedLength.Statement, encode, opOf_headerWord]; rfl
theorem EncodedLength.tsSendMf (id : BitVec 4) (str cb : Word32) : EncodedLength.Statement (.tsSendMf id str cb) := by
  simp only [EncodedLength.Statement, encode, opOf_headerWord]; rfl
theorem EncodedLength.tsSendDtmf (id : BitVec 4) (str cb : Word32) : EncodedLength.Statement (.tsSendDtmf id str cb) := by
  simp only [EncodedLength.Statement, encode, opOf_headerWord]; rfl
theorem EncodedLength.tsSend (id : BitVec 4) (buf len cb : Word32) : EncodedLength.Statement (.tsSend id buf len cb) := by
  simp only [EncodedLength.Statement, encode, opOf_headerWord]; rfl
theorem EncodedLength.tsSendLoop (id : BitVec 4) (buf len : Word32) : EncodedLength.Statement (.tsSendLoop id buf len) := by
  simp only [EncodedLength.Statement, encode, opOf_headerWord]; rfl
theorem EncodedLength.tsStop (id : BitVec 4) : EncodedLength.Statement (.tsStop id) := by
  simp only [EncodedLength.Statement, encode, opOf_headerWord]; rfl
theorem EncodedLength.tsRequestBlock (half : BitVec 4) : EncodedLength.Statement (.tsRequestBlock half) := by
  simp only [EncodedLength.Statement, encode, opOf_headerWord]; rfl
theorem EncodedLength.mfSeize (cb : Word32) : EncodedLength.Statement (.mfSeize cb) := by
  simp only [EncodedLength.Statement, encode, opOf_headerWord]; rfl
theorem EncodedLength.mfRelease (desc : Word32) : EncodedLength.Statement (.mfRelease desc) := by
  simp only [EncodedLength.Statement, encode, opOf_headerWord]; rfl
theorem EncodedLength.mfHandleBuffer (half : BitVec 4) : EncodedLength.Statement (.mfHandleBuffer half) := by
  simp only [EncodedLength.Statement, encode, opOf_headerWord]; rfl

end Sys2Proof.Laws
end

