-- ==== Sys2Proof/Laws/Runs.lean ====
section
/-! SUPPORT. Runs of ticks (Safety.lean) one step at a time at their far end, and the tone-end states as their shared operation. -/

namespace Sys2Proof.Machine

theorem oscAfter_succ (cfg : Cfg) (n : Nat) (o : Osc) : oscAfter cfg (n + 1) o = (ncoTick cfg (oscAfter cfg n o)).1 := by
  induction n generalizing o with
  | zero => rfl
  | succ n ih => exact ih _

theorem chanAfter_succ (cfg : Cfg) (audio : Cells 16) (c : ChanId) (n : Nat) (ch : ChannelInfo) :
    chanAfter cfg audio c (n + 1) ch = (chTick cfg audio c (chanAfter cfg audio c n ch)).ch := by
  induction n generalizing ch with
  | zero => rfl
  | succ n ih => exact ih _

/-- A tick of a tone-end state is `tone_end_tick` with that state's follower and timer (R131, R134, R137, R140). -/
theorem chTick_toneEnd {cfg : Cfg} {ch : ChannelInfo} {next : ChState} {t : Nat} (h : toneEnd cfg ch = some (next, t))
    (audio : Cells 16) (c : ChanId) : chTick cfg audio c ch = toneEndTick cfg ch next t := by
  unfold toneEnd at h
  split at h <;> cases h <;>
    simp [chTick, *, tickBusyWaitToneEnd, tickRingingWaitToneEnd, tickSendMfWaitToneEnd, tickSendDtmfWaitToneEnd]

end Sys2Proof.Machine
end

