-- ==== Sys2Proof/Tests/Slice0.lean ====
section
/-! SUPPORT. The model's own tests. Expected values come from spec/95_test_vectors.md (V and P numbers), spec/30_encoding.md R90 and
spec/00_scope.md R12; the witnesses show states and operands that meet the hypotheses of the statements. -/

namespace Sys2Proof.Tests

open Sys2Proof.Machine

-- One kernel evaluation at a time: each waits for the ones before it, and every waiting theorem would hold a thread.
set_option Elab.async false

/-! ## Helpers -/

/-- The machine after `SETUP(TINYCFG)`. -/
def tiny : State := State.init tinyCfg

/-- The next state of an outcome. -/
def after (o : Host.Outcome State Fault Refusal) : Option State :=
  match o with
  | .next s => some s
  | .fault _ => none
  | .refused _ => none

/-- The refusal of an outcome. -/
def refusalOf (o : Host.Outcome State Fault Refusal) : Option Refusal :=
  match o with
  | .next _ => none
  | .fault _ => none
  | .refused r => some r

/-- The fault of an outcome. -/
def faultOf (o : Host.Outcome State Fault Refusal) : Option Fault :=
  match o with
  | .next _ => none
  | .fault f => some f
  | .refused _ => none

/-- A channel that is owned and in a state. -/
def inState (st : ChState) : ChannelInfo := { ChannelInfo.reset tinyCfg with owned := true, state := st }

/-- TINYCFG with these two channels. -/
def withChannels (a b : ChannelInfo) : State := { tiny with te := { tiny.te with ch0 := a, ch1 := b } }

/-- Channel 0 owned, channel 1 free. -/
def oneOwned : State := withChannels (inState .idle) (ChannelInfo.reset tinyCfg)

/-- Both channels owned. -/
def bothOwned : State := withChannels (inState .idle) (inState .idle)

/-- TINYCFG with this decoder record. -/
def withMf (mf : MfData) : State := { tiny with mr := { tiny.mr with mf := mf, samplingOn := true } }

/-- The decoder just after a seize with descriptor 7. -/
def fresh : MfData := seizedMf (MfData.reset tinyCfg) 0xC001 7

/-- The decoder after an accepted KP, waiting for a digit. -/
def afterKp : MfData := { fresh with state := .waitDigit, ndigits := 1, digits := [0x2A, 0, 0, 0, 0] }

/-- The same machine, with the instruction issued from another context. -/
def from_ (c : Ctx) (s : State) : State := { s with ctx := c }

/-- A machine whose string 0x20003010 is "*2#". -/
def withString (s : State) : State :=
  { s with env := { s.env with str := Cells.writeList [] (handleIndex 0x20003010 0) [0x2A, 0x32, 0x23] } }

/-- A machine whose buffers are those of program P5. -/
def withAudio (s : State) : State :=
  let first := Cells.writeList [] (handleIndex 0x20001000 0) ([100, -200, 300].map (BitVec.ofInt 16))
  let both := Cells.writeList first (handleIndex 0x20002000 0) ([7, -8, 9].map (BitVec.ofInt 16))
  { s with env := { s.env with audio := both } }

/-- The samples of a half, in order. -/
def outHalf (s : State) (h : Half) : List Int := (List.range (2 * s.cfg.blockFrames)).map fun p => (s.readOut h p).toInt

/-! ## Well-formedness -/

/-- R67, R91 (c): each half index outside {0, 1} is refused by the check. -/
theorem test_wellformed_request_block : Instr.wellFormed (.tsRequestBlock 2) = false := by decide
theorem test_wellformed_handle_buffer : Instr.wellFormed (.mfHandleBuffer 15) = false := by decide
theorem test_wellformed_legal :
    Instr.wellFormed (.tsRequestBlock 1) = true ∧ Instr.wellFormed (.mfHandleBuffer 0) = true ∧
    Instr.wellFormed (.tsCpt 15 15) = true := by decide

/-- R12: both of the spec's configurations are well-formed. -/
theorem test_refcfg_wellformed : Cfg.wellFormed refCfg = true := by decide +kernel
theorem test_tinycfg_wellformed : Cfg.wellFormed tinyCfg = true := by decide +kernel

/-- R12 (a): the sine table has `2^TABLE_BITS` entries, the block at least one frame. -/
theorem test_illformed_table : Cfg.tableOk { tinyCfg with tableBits := 4 } = false ∧
    Cfg.tableOk { tinyCfg with blockFrames := 0 } = false := by decide
/-- R12 (a): the receiver's counts are at least 1. -/
theorem test_illformed_receiver : Cfg.receiverOk { tinyCfg with mfInterdigitTimeout := 0 } = false ∧
    Cfg.receiverOk { tinyCfg with adcCenter := 0 } = false := by decide +kernel
/-- R12 (a): no duration is negative. -/
theorem test_illformed_duration : Cfg.durationsOk { tinyCfg with ringOffMs := -1 } = false := by decide +kernel
/-- R12 (b), V1: 8000 Hz does not fit a 16-bit tuning word. -/
theorem test_illformed_frequency : freqOk 8000 = false ∧ freqOk 7999 = true := by decide +kernel
/-- R12 (c): two full gains overflow the sum. -/
theorem test_illformed_gains : gainsOk 32767 1 1 = false ∧ gainsOk 32767 (1 / 2) (1 / 2) = true := by decide +kernel
/-- R12 (d): a doubled MF row has a doubled mask. -/
theorem test_illformed_mf_rows :
    Cfg.mfPairOk { tinyCfg with mfPair := ⟨700, 900⟩ :: refMfPair.drop 1 } = false := by decide +kernel
/-- R12: an ill-formed configuration is refused whole. -/
theorem test_setup_illformed : refusalOf (setup { tinyCfg with maxDigits := 0 } .ok) = some .illFormedConfig := by
  decide +kernel

/-! ## Decoding: words written out from R90 -/

theorem test_decode_ts_seize : decode 0x0100 [] = .ok (.tsSeize, []) := by decide
theorem test_decode_ts_release : decode 0x0210 [] = .ok (.tsRelease 1, []) := by decide
theorem test_decode_ts_cpt : decode 0x0313 [] = .ok (.tsCpt 1 3, []) := by decide
theorem test_decode_ts_send_mf : decode 0x0400 [0x20003000, 0x0000A001] = .ok (.tsSendMf 0 0x20003000 0xA001, []) := by decide
theorem test_decode_ts_send_dtmf : decode 0x0510 [0x20003000, 0xB001, 9] = .ok (.tsSendDtmf 1 0x20003000 0xB001, [9]) := by
  decide
theorem test_decode_ts_send : decode 0x0600 [0x20001000, 3, 0xA001] = .ok (.tsSend 0 0x20001000 3 0xA001, []) := by decide
theorem test_decode_ts_send_loop : decode 0x0710 [0x20002000, 3] = .ok (.tsSendLoop 1 0x20002000 3, []) := by decide
theorem test_decode_ts_stop : decode 0x0810 [] = .ok (.tsStop 1, []) := by decide
theorem test_decode_ts_request_block : decode 0x0901 [] = .ok (.tsRequestBlock 1, []) := by decide
theorem test_decode_mf_seize : decode 0x1100 [0xC001] = .ok (.mfSeize 0xC001, []) := by decide
theorem test_decode_mf_release : decode 0x1200 [7] = .ok (.mfRelease 7, []) := by decide
theorem test_decode_mf_handle_buffer : decode 0x1901 [] = .ok (.mfHandleBuffer 1, []) := by decide

/-- R91 (a): unknown `op`s, nonzero must-be-zero fields, missing and surplus operands are rejected by name. -/
theorem test_decode_rejects :
    decode 0x0A00 [] = .error .unknownOp ∧ decode 0x1000 [] = .error .unknownOp ∧ decode 0x0110 [] = .error .nonzeroId ∧
    decode 0x0211 [] = .error .nonzeroArg ∧ decode 0x0400 [5] = .error .missingOperand ∧
    decodeRequest 0x0800 [5] = .error .surplusOperand := by decide

/-- Table words: header in bits 15 to 0, operand words from bit 16 on. -/
theorem test_decode_table_word :
    decodeTableWord 16 0x0313 = some (.tsCpt 1 3) ∧ decodeTableWord 16 0x0600 = some (.tsSend 0 0 0 0) ∧
    decodeTableWord 48 0xC0011100 = some (.mfSeize 0xC001) ∧ decodeTableWord 16 0x0A00 = none := by decide

/-! ## Operand forms and arithmetic -/

/-- R81, R82, V20: the digit map, and 'D' refused for MF only. -/
theorem test_digit_encode :
    digitEncode tinyCfg .mf [0x2A, 0x32, 0x23] = some [0xA, 2, 0xB] ∧ digitEncode tinyCfg .mf [0x44] = none ∧
    digitEncode tinyCfg .dtmf [0x44] = some [0xF] ∧ digitEncode tinyCfg .dtmf [0x61] = none ∧
    digitEncode tinyCfg .mf (List.replicate 9 0x31) = none := by decide
/-- V1. -/
theorem test_tuning_words :
    [(440 : Q), 620, 697, 1633, 7999, 125 / 2048].map (fun f => (tuningWord f).toNat) = [3604, 5079, 5710, 13378, 65528, 1] := by
  decide +kernel
/-- V2: truncation toward zero. -/
theorem test_scale :
    scale (-804) (7336 / 32768) = -179 ∧ scale (-1) (1 / 2) = 0 ∧ scale (-3) (1 / 2) = -1 ∧ scale 32767 (1 / 4) = 8191 := by
  decide +kernel
/-- V26 (d): the offset of a frame with one half-scale sample is -1/2. -/
theorem test_offset : dcOffset .exact [0, 0, 1 / 2] = -1 / 2 ∧ removeDc .exact [0, 0, 1 / 2] = [1 / 2, 1 / 2, 1] := by decide +kernel
/-- R203, R204's worked examples: raw 1648 gives 400/2048 and 4095 gives -2047/2048; vmax 0.25 and vmin -0.15 give offset -0.1. -/
theorem test_normalise :
    normalise tinyCfg 1648 = 400 / 2048 ∧ normalise tinyCfg 4095 = -2047 / 2048 ∧ dcOffset .exact [0, 1 / 4, -3 / 20] = -1 / 10 := by
  decide +kernel
/-- U2, U3: a platform's arithmetic is admitted, and its root of a negative radicand is 0. -/
theorem test_platform_numerics :
    Cfg.wellFormed { tinyCfg with numerics := .platform 1 } = true ∧ platformRoot 1 (-1) = 0 := by decide +kernel
/-- V28: strict threshold, no twist check. -/
theorem test_classify :
    gzClassify tinyCfg (Six.map (fun p => ⟨0, 0, 0, p⟩) ⟨64, 64, 0, 0, 0, 0⟩) = .silence ∧
    gzClassify tinyCfg (Six.map (fun p => ⟨0, 0, 0, p⟩) ⟨10000, 81, 0, 0, 0, 0⟩) = .valid 0x03 ∧
    gzClassify tinyCfg (Six.map (fun p => ⟨0, 0, 0, p⟩) ⟨81, 81, 81, 0, 0, 0⟩) = .invalid := by decide +kernel

/-! ## One step of each instruction -/

/-- V18. -/
theorem test_ts_seize :
    (after (exec .tsSeize tiny)).map (·.ret) = some (.channel .left) ∧
    (after (exec .tsSeize oneOwned)).map (fun t => (t.ret, t.te.ch1.owned)) = some (.channel .right, true) ∧
    (after (exec .tsSeize bothOwned)).map (·.ret) = some .noChannel := by decide +kernel
theorem test_ts_release :
    (after (exec (.tsRelease 0) oneOwned)).map (fun t => (t.ret, t.te.ch0.owned)) = some (.bool true, false) ∧
    (after (exec (.tsRelease 15) oneOwned)).map (·.ret) = some (.bool false) := by decide +kernel
/-- V19. -/
theorem test_ts_cpt :
    (after (exec (.tsCpt 0 3) oneOwned)).map (fun t => (t.ret, t.te.ch0.state)) = some (.bool true, .genRingingTone) ∧
    (after (exec (.tsCpt 0 4) oneOwned)).map (·.ret) = some (.bool false) ∧
    (after (exec (.tsCpt 1 0) oneOwned)).map (·.ret) = some (.bool false) := by decide +kernel
/-- P2. -/
theorem test_ts_send_mf :
    (after (exec (.tsSendMf 0 0x20003010 0xA001) (withString oneOwned))).map
      (fun t => (t.ret, t.te.ch0.state, t.te.ch0.digits.take 4, t.te.ch0.dlen, t.te.ch0.cb)) =
      some (.bool true, .sendMf, [0xA, 2, 0xB, 0], 3, some 0xA001) := by decide +kernel
theorem test_ts_send_mf_null :
    (after (exec (.tsSendMf 0 0x20003010 0) (withString oneOwned))).map (fun t => (t.ret, t.te.ch0.state)) =
      some (.bool false, .idle) := by decide +kernel
theorem test_ts_send_dtmf :
    (after (exec (.tsSendDtmf 1 0x20003010 0xB001) (withString bothOwned))).map
      (fun t => (t.ret, t.te.ch1.state, t.te.ch1.dlen, t.te.ch0.state)) = some (.bool true, .sendDtmf, 3, .idle) := by
  decide +kernel
/-- P5. -/
theorem test_ts_send :
    (after (exec (.tsSend 0 0x20001000 3 0) oneOwned)).map (fun t => (t.ret, t.te.ch0.state, t.te.ch0.alen, t.te.ch0.cb)) =
      some (.bool true, .sendAudio, 3, none) ∧
    (after (exec (.tsSend 0 0 3 0xA001) oneOwned)).map (·.ret) = some (.bool false) := by decide +kernel
theorem test_ts_send_loop :
    (after (exec (.tsSendLoop 1 0x20002000 3) bothOwned)).map (fun t => (t.ret, t.te.ch1.state, t.te.ch1.abuf)) =
      some (.bool true, .sendAudioLoop, some 0x20002000) ∧
    (after (exec (.tsSendLoop 1 0x20002000 0) bothOwned)).map (fun t => (t.ret, t.te.ch1.state)) =
      some (.bool false, .idle) := by decide +kernel
theorem test_ts_stop :
    (after (exec (.tsStop 0) (withChannels (inState .genDialToneWait) (inState .idle)))).map
      (fun t => (t.ret, t.te.ch0.state, t.te.ch0.owned)) = some (.bool true, .idle, true) ∧
    (after (exec (.tsStop 1) oneOwned)).map (·.ret) = some (.bool false) := by decide +kernel
/-- P1 step 6. -/
theorem test_ts_request_block_tones :
    (after (exec (.tsRequestBlock 0) (from_ .outSignal (withChannels (inState .genDialTone) (inState .genBusyTone))))).map
      (fun t => outHalf t .first) =
      some [0, 0, 0, 0, 19776, 11585, 16383, 16383, 3394, 11585, 0, 0, -3394, -11585, -16383, -16383] := by decide +kernel
/-- P5 step 5. -/
theorem test_ts_request_block_playback :
    (after (exec (.tsRequestBlock 0) (from_ .outSignal (withAudio (withChannels
        { inState .sendAudio with abuf := some 0x20001000, alen := 3, cb := some 0xA001 }
        { inState .sendAudioLoop with abuf := some 0x20002000, alen := 3 }))))).map
      (fun t => (outHalf t .first, t.log)) =
      some ([0, 0, 100, 7, -200, -8, 300, 9, 0, 7, 0, -8, 0, 9, 0, 7], [.teDone .left 0xA001]) := by decide +kernel
/-- V40. -/
theorem test_mf_seize :
    (after (exec (.mfSeize 0xC001) tiny)).map (fun t => (t.mr.mf.state, t.mr.samplingOn, t.mr.mf.cb)) =
      some (.waitKp, true, some 0xC001) ∧
    (after (exec (.mfSeize 0) tiny)).map (fun t => (t.ret, t.mr.mf.state)) = some (.desc 0, .idle) := by decide +kernel
/-- V42: driver failure on a seize. -/
theorem test_mf_seize_fatal :
    (after (exec (.mfSeize 0xC001) (setDriver tiny .fail .ok))).map (fun t => (t.fatal, t.ret, t.mr.mf.state)) =
      some (true, .nothing, .idle) := by decide +kernel
theorem test_mf_release :
    (after (exec (.mfRelease 7) (withMf fresh))).map (fun t => (t.ret, t.mr.mf.state, t.mr.samplingOn, t.mr.mf.desc)) =
      some (.bool true, .idle, false, 0) ∧
    (after (exec (.mfRelease 8) (withMf fresh))).map (fun t => (t.ret, t.mr.mf.state)) = some (.bool false, .waitKp) := by
  decide +kernel
/-- V42: the receiver's command from inside its own callback. -/
theorem test_mf_release_deadlock : faultOf (exec (.mfRelease 7) (from_ .mfCallback (withMf fresh))) = some .deadlock := by
  decide +kernel
/-- U18: a raw sample of 4096 is no 12-bit sample. V41: outside reception nothing is processed. -/
theorem test_mf_handle_buffer_edges :
    refusalOf (exec (.mfHandleBuffer 0) (from_ .adcSignal (adcFill (withMf fresh) .first [4096]))) =
      some .adcSampleOutOfRange ∧
    (after (exec (.mfHandleBuffer 1) (from_ .adcSignal tiny))).map (fun t => (t.ret, t.mr.mf.state, t.log)) =
      some (.nothing, .idle, []) := by decide +kernel
set_option maxRecDepth 100000 in
/-- V26 (b), P4 step 5: a constant frame is silence (here every raw sample is 0), so KpSilence goes to WaitDigit. -/
theorem test_mf_handle_buffer_constant :
    (after (exec (.mfHandleBuffer 0) (from_ .adcSignal (withMf { fresh with state := .kpSilence, ndigits := 1, timer := 3 })))).map
      (fun t => (t.mr.mf.state, t.mr.mf.timer)) = some (.waitDigit, 0) := by decide +kernel

/-- The step runs the word placed on the port, and an empty port waits. -/
theorem test_step_fetches :
    (after (step (tiny.withFetchWord 16 0x0100))).map (fun t => (t.ret, t.inputs)) = some (.channel .left, []) ∧
    (after (step tiny)).map (·.inputs) = some [] := by decide +kernel
/-- U10, U11, U20. -/
theorem test_step_stops :
    refusalOf (step (tiny.withFetchWord 16 0x0A00)) = some (.invalidCommand .unknownOp) ∧
    faultOf (step { tiny with fatal := true }) = some .fatalHalt ∧
    refusalOf (step { tiny with cfg := { tinyCfg with maxDigits := 0 } }) = some .illFormedConfig := by decide +kernel

/-! ## Frames -/

/-- V33: the accepting sequence. -/
theorem test_decoder_accepts :
    (fun r : MfData × List Event => (r.1.state, r.2)) (feed tinyCfg [.valid 0x24, .valid 0x24, .valid 0x24, .silence, .valid 0x05, .valid 0x05, .silence, .valid 0x30, .valid 0x30, .silence] fresh) = (.waitRelease, [.mfDone (some 0xC001) .ok 3 [0x2A, 0x32, 0x23]]) := by
  decide +kernel
/-- V36: the timer accumulates over non-valid frames. -/
theorem test_decoder_times_out :
    (fun r : MfData × List Event => (r.1.state, r.2)) (feed tinyCfg [.silence, .silence, .valid 0x05, .silence, .invalid, .silence] afterKp) = (.waitRelease, [.mfDone (some 0xC001) .timeout 1 [0x2A]]) := by
  decide +kernel

/-! ## Witnesses: the hypotheses of the statements can be met, each clause at the edge of its range -/

/-- TINYCFG with one request on the port. -/
def port (c : Ctx) (h : Header) (ws : List Word32) : State := { tiny with inputs := [.request ⟨c, h, ws⟩] }

theorem running_port (c : Ctx) (h : Header) (ws : List Word32) : running (port c h ws) :=
  ⟨rfl, test_tinycfg_wellformed⟩

/-- `ReservedHeadersAreRefused`: a bad `op`, a nonzero `id`, a nonzero `arg`. -/
theorem witness_reserved_headers :
    running (port .task 0x0A00 []) ∧
    (opOf 0x0A00 ∉ [0x01#8, 0x02#8, 0x03#8, 0x04#8, 0x05#8, 0x06#8, 0x07#8, 0x08#8, 0x09#8, 0x11#8, 0x12#8, 0x19#8]) ∧
    (opOf 0x19F0 ∈ [0x01#8, 0x09#8, 0x11#8, 0x12#8, 0x19#8] ∧ idOf 0x19F0 ≠ 0) ∧
    (opOf 0x1201 ∈ [0x01#8, 0x02#8, 0x04#8, 0x05#8, 0x06#8, 0x07#8, 0x08#8, 0x11#8, 0x12#8] ∧ argOf 0x1201 ≠ 0) :=
  ⟨running_port _ _ _, by decide, by decide, by decide⟩

/-- `StepRunsTheDecodedInstruction`. -/
theorem witness_step : running (port .task 0x0313 []) ∧ decodeRequest 0x0313 [] = .ok (.tsCpt 1 3) :=
  ⟨running_port _ _ _, by decide⟩

/-- `DecodedWordsAreTheEncoding`. -/
theorem witness_decoded_words : decode 0x0710 [5, 3, 9] = .ok (.tsSendLoop 1 5 3, [9]) := by decide

/-- Commands are admitted from a task and from the MF callback, and every id that names no owned channel is `notOwned`. -/
theorem witness_commands :
    mayCommand bothOwned ∧ mayCommand (from_ .mfCallback bothOwned) ∧
    (bothOwned.te.ch .left).owned = true ∧ (bothOwned.te.ch .right).owned = true ∧
    notOwned oneOwned 1 ∧ notOwned bothOwned 2 ∧ notOwned bothOwned 15 ∧ notOwned tiny 0 := by
  refine ⟨.inl rfl, .inr rfl, rfl, rfl, ?_, ?_, ?_, ?_⟩ <;> intro c hc <;> cases c <;>
    first | rfl | exact absurd hc (by decide)

/-- `SeizeClaimsTheLowestFreeChannel`: its three clauses. -/
theorem witness_seize :
    tiny.te.ch0.owned = false ∧ (oneOwned.te.ch0.owned = true ∧ oneOwned.te.ch1.owned = false) ∧
    (bothOwned.te.ch0.owned = true ∧ bothOwned.te.ch1.owned = true) := ⟨rfl, ⟨rfl, rfl⟩, rfl, rfl⟩

/-- `CptSetsTheHeadState`: the least and the greatest bad kind. -/
theorem witness_cpt : 4 ≤ (4 : BitVec 4).toNat ∧ 4 ≤ (15 : BitVec 4).toNat := by decide

/-- `SendMfInstallsTheDigits` and `SendDtmfInstallsTheDigits`: a string that encodes, one that does not, and an empty one. -/
theorem witness_digits :
    digitEncode tinyCfg .mf (readStr (withString tiny).env.str 0x20003010) = some [0xA, 2, 0xB] ∧
    digitEncode tinyCfg .dtmf (readStr (withString tiny).env.str 0x20003010) = some [0xA, 2, 0xB] ∧
    digitEncode tinyCfg .mf (readStr (strWrite tiny 1 0 0x44).env.str 1) = none ∧
    digitEncode tinyCfg .dtmf (readStr (strWrite tiny 1 0 0x61).env.str 1) = none ∧
    (∀ c ∈ [(0x2A : Ascii), 0x44, 0x30, 0x39], (digitCode c).isSome = true) ∧
    digitEncode tinyCfg .mf (readStr tiny.env.str 1) = some [] ∧ digitEncode tinyCfg .dtmf (readStr tiny.env.str 1) = some [] := by
  decide +kernel

/-- `FailedToneCommandChangesNothing`: both sentinels. -/
theorem witness_failed_tone :
    isTone .tsSeize = true ∧ (after (exec .tsSeize bothOwned)).map (·.ret) = some .noChannel ∧
    isTone (.tsStop 2) = true ∧ (after (exec (.tsStop 2) bothOwned)).map (·.ret) = some (.bool false) := by decide +kernel

/-- `DigitCodesFollowTheTable`: the ends of the decimal range. -/
theorem witness_digit_codes : digitCode 0x30 = some 0 ∧ digitCode 0x39 = some 9 ∧ digitCode 0x44 = some 0xF := by decide

/-- `RequestBlockInterleavesTheChannels`: both halves. -/
theorem witness_request_block :
    (from_ .outSignal tiny).ctx = .outSignal ∧ halfOf 0 = some .first ∧ halfOf 1 = some .second ∧ 0 < tiny.cfg.blockFrames := by
  decide

/-- The bad half indices of `RequestBlockInterleavesTheChannels` and `HandleBufferProcessesOneFrame`: the least and the greatest bad half index, from either signal. -/
theorem witness_bad_half :
    2 ≤ (2 : BitVec 4).toNat ∧ 2 ≤ (15 : BitVec 4).toNat ∧ (from_ .outSignal tiny).ctx = .outSignal ∧
    (from_ .adcSignal tiny).ctx = .adcSignal := by decide

/-- `CallProgressHeadsLoadTheTone` (a duration at its least value too) and `DialToneNeverEndsByItself`. -/
theorem witness_heads :
    (0 : Q) ≤ 0 ∧
    (inState .genDialTone).state = .genDialTone ∧ (inState .genBusyTone).state = .genBusyTone ∧
    (inState .genCongestionTone).state = .genCongestionTone ∧ (inState .genRingingTone).state = .genRingingTone ∧
    (inState .genDialToneWait).state = .genDialToneWait := by decide +kernel

/-- A channel with TINYCFG's busy tone at a phase, in a tone-end state with its timer run out. -/
def sounding (st : ChState) (p : Phase) : ChannelInfo :=
  { inState st with tone0 := { freq := 1000, gain := 1 / 2, phase := p, tw := 8192 }, reload := 8 }

/-- `ToneBurstLastsTimerPlusDeferral`: one burst ends at once, one after a deferral of three ticks (z = 3). -/
theorem witness_tone_burst :
    toneEnd tinyCfg (sounding .busyWaitToneEnd 0) = some (.busyWaitSilenceEnd, 8) ∧
    (sampleAt tinyCfg [] .left (0 + 0) (sounding .busyWaitToneEnd 0)).toInt.natAbs ≤ tinyCfg.zcThreshold ∧
    (∀ k, k < 3 →
      tinyCfg.zcThreshold < (sampleAt tinyCfg [] .left (0 + k) (sounding .busyWaitToneEnd 8192)).toInt.natAbs) ∧
    (sampleAt tinyCfg [] .left (0 + 3) (sounding .busyWaitToneEnd 8192)).toInt.natAbs ≤ tinyCfg.zcThreshold := by
  decide +kernel

/-- `SilenceLastsTimerPlusOne`: every silence state. -/
theorem witness_silence :
    silenceEnd .busyWaitSilenceEnd = some .busyWaitToneEnd ∧ silenceEnd .ringingWaitSilenceEnd = some .genRingingTone ∧
    silenceEnd .sendMfWaitSilenceEnd = some .sendMf ∧ silenceEnd .sendDtmfWaitSilenceEnd = some .sendDtmf := by decide

/-- `ZeroCrossDeferralIsBounded`: a tone out of the band, one tick after phase 0. -/
theorem witness_zero_cross :
    toneEnd tinyCfg (sounding .sendMfWaitToneEnd 8192) = some (.sendMfWaitSilenceEnd, 8) ∧
    (sounding .sendMfWaitToneEnd 8192).timer = 0 ∧ advanced 1 (sounding .sendMfWaitToneEnd 8192).tone0 ∧
    advanced 1 (sounding .sendMfWaitToneEnd 8192).tone1 ∧
    (pairTick tinyCfg (rewound (sounding .sendMfWaitToneEnd 8192))).2.toInt.natAbs ≤ tinyCfg.zcThreshold :=
  ⟨by decide +kernel, rfl, .inr rfl, .inl rfl, by decide +kernel⟩

/-- `OutpulsingHeadsLoadOrFinish`: a callback and none, an empty buffer, the last digit sent, and the last and only digit still to
send. -/
theorem witness_outpulsing :
    ({ inState .sendMf with cb := some 0xA001 }.cb = some 0xA001 ∧ (inState .sendMf).cb = none) ∧
    (inState .sendMf).dlen = 0 ∧
    (0 < { inState .sendDtmf with dlen := 1, didx := 1 }.dlen ∧
      { inState .sendDtmf with dlen := 1, didx := 1 }.dlen ≤ { inState .sendDtmf with dlen := 1, didx := 1 }.didx) ∧
    (installDigits (inState .idle) [0xE] 1 .sendMf).didx < (installDigits (inState .idle) [0xE] 1 .sendMf).dlen ∧
    (installDigits (inState .idle) [0xE] 1 .sendMf).digits[0]? = some 0xE ∧
    tinyCfg.mfPair[(0xE : DigitCode).toNat]? = some ⟨700, 1700⟩ ∧
    tinyCfg.dtmfPair[(0xF : DigitCode).toNat]? = some ⟨941, 1633⟩ := by decide +kernel

/-- `PlaybackPlaysTheBufferOnce` and `LoopWrapsExactlyAtTheLength`: an Idle channel, an empty buffer played with a callback and with
none, a one-sample buffer looped. -/
theorem witness_playback :
    (inState .idle).state = .idle ∧
    ({ inState .sendAudio with abuf := some 5, cb := some 6 }.cb = some 6 ∧ { inState .sendAudio with abuf := some 5 }.cb = none) ∧
    ({ inState .sendAudio with abuf := some 5 }.state = .sendAudio ∧ { inState .sendAudio with abuf := some 5 }.abuf = some 5) ∧
    ({ inState .sendAudioLoop with abuf := some 5, alen := 1 }.state = .sendAudioLoop ∧
      1 ≤ { inState .sendAudioLoop with abuf := some 5, alen := 1 }.alen) := by decide

/-- `TuningWordIsTheRoundedRatio`: the least and the greatest tuning word. -/
theorem witness_tuning_word :
    ncoTw 0 = 0 ∧ (0 : Q) ≤ 65535 * 8000 / 65536 ∧ ncoTw (65535 * 8000 / 65536) = 65535 := by decide +kernel

/-- `PhasePeriodIsTheGcdQuotient`: a sounding and a silent component. -/
theorem witness_period :
    (sounding .genDialToneWait 0).tone0.freq ≠ 0 ∧ (sounding .genDialToneWait 0).tone0.phase = 0 ∧
    (sounding .genDialToneWait 0).tone1.freq = 0 := by decide +kernel

/-- `PairSumNeverOverflows`: the greatest legal gains of TINYCFG's table; a sounding component at the last phase, a silent one. -/
theorem witness_pair_sum :
    Cfg.wellFormed tinyCfg = true ∧ gainsOk (Cfg.amp tinyCfg.sineTable) (1 / 2) (1 / 2) = true ∧
    gainsOk (Cfg.amp tinyCfg.sineTable) 1 0 = true ∧
    ((sounding .genDialToneWait 65535).tone0.freq ≠ 0 ∧ tinyCfg.sineTable[65535 / 2 ^ (16 - 3)]? = some (BitVec.ofInt 16 (-23170))) ∧
    (sounding .genDialToneWait 0).tone1.freq = 0 :=
  ⟨test_tinycfg_wellformed, by decide +kernel, by decide +kernel, by decide +kernel, by decide +kernel⟩

/-- `MfSeizeStartsAReception`, `MfReleaseFreesTheReceiver` and `DriverFailureIsFatal`: each clause. -/
theorem witness_receiver_commands :
    tiny.ctx = .task ∧ tiny.mr.mf.state = .idle ∧ (withMf fresh).mr.mf.state ≠ .idle ∧ tiny.env.drvStart = .ok ∧
    (7 : Word32) ≠ 0 ∧ 7 = (withMf fresh).mr.mf.desc ∧ (8 : Word32) ≠ (withMf fresh).mr.mf.desc ∧
    (withMf fresh).env.drvStop = .ok ∧ (setDriver tiny .fail .ok).env.drvStart = .fail ∧
    (setDriver (withMf fresh) .ok .fail).env.drvStop = .fail := by decide +kernel

/-- `ReceiverCommandInItsCallbackDeadlocks` and `OnlyTheRightContextIssues`: each context. -/
theorem witness_contexts :
    (from_ .mfCallback tiny).ctx = .mfCallback ∧ (from_ .toneCallback tiny).ctx = .toneCallback ∧
    isEvent .tsSeize = false ∧ (isEvent (.tsRequestBlock 0) = true ∧ isTone (.tsRequestBlock 0) = true) ∧
    (isEvent (.mfHandleBuffer 0) = true ∧ isTone (.mfHandleBuffer 0) = false) ∧ tiny.ctx ≠ .outSignal ∧ tiny.ctx ≠ .adcSignal := by
  decide

/-- `HandleBufferProcessesOneFrame`: outside reception; in reception with every sample in range, the last of them at the bound;
in reception with one sample just out of range. -/
theorem witness_handle_buffer :
    tiny.mr.mf.state = .idle ∧ { fresh with state := MfState.waitRelease }.state = .waitRelease ∧
    ((withMf fresh).mr.mf.state ≠ .idle ∧ (withMf fresh).mr.mf.state ≠ .waitRelease ∧
      ∀ n, n < 320 → ((adcFill (withMf fresh) .first [4095]).readAdc .first n).toNat < 2 ^ tinyCfg.adcBits) ∧
    (∃ n, n < 320 ∧ 2 ^ tinyCfg.adcBits ≤ ((adcFill (withMf fresh) .first [4096]).readAdc .first n).toNat) := by
  refine ⟨rfl, rfl, ⟨by decide, by decide, fun n _ => ?_⟩, 0, by omega, by decide⟩
  by_cases h : n = 0
  · subst h; decide
  · have e : (adcFill (withMf fresh) .first [4095]).readAdc .first n = 0 := by
      have : (0 : Nat) ≠ 0 * 320 + n := by omega
      show Cells.read [(0, (4095 : Sample))] (adcIndex .first n) = 0
      rw [Cells.read, if_neg]
      · rfl
      · show ¬ (0 : Nat) = 0 * (16000 * 20 / 1000) + n
        omega
    rw [e]; decide

/-- `CentredFrameIsSilence`, `CorrectedFrameFollowsTheFormula` and `PresenceIsPowerAboveTheThreshold`: the least threshold, the
shortest frame, the extreme and REFCFG's coefficients, the reference arithmetic. -/
theorem witness_filter_bank :
    (0 : Q) ≤ { tinyCfg with silenceThreshold := 0 }.silenceThreshold ∧ (0 : Q) ≤ refCfg.silenceThreshold ∧
    refCfg.numerics = .exact ∧ tinyCfg.numerics = .exact ∧ ([0] : List Nat) ≠ [] ∧
    (-2 : Q) ≤ -2 ∧ (2 : Q) ≤ 2 ∧ (-2 : Q) ≤ refCfg.gzCoeff.k0 ∧ refCfg.gzCoeff.k0 ≤ 2 := by decide +kernel

/-- `FrameClassesCountTonesAndDecode`: a valid class; a well-formed table, its first and last rows, the code without a row. -/
theorem witness_frame_class :
    classOf ⟨true, false, true, false, false, false⟩ = .valid 0x05 ∧ Cfg.wellFormed tinyCfg = true ∧
    (tinyCfg.mfPair[(0 : DigitCode).toNat]? = some ⟨1300, 1500⟩ ∧ tinyCfg.mfPair[(0xE : DigitCode).toNat]? = some ⟨700, 1700⟩ ∧
      tinyCfg.mfPair[(0xF : DigitCode).toNat]? = none) ∧
    (mfDecode tinyCfg 0x18 = some 0x30 ∧ mfDecode tinyCfg 0x21 = some 0x43 ∧ mfDecode tinyCfg 0x24 = some 0x2A) ∧
    ((List.range 6).map (0x21 : Mask).getLsbD).count true = 2 ∧ isTerminator 0x43 = true ∧ isTerminator 0x2A = false :=
  ⟨by decide, test_tinycfg_wellformed, by decide +kernel, by decide +kernel, by decide, by decide, by decide⟩

/-- TINYCFG with the least counts and buffer that still admit "*2#". -/
def least : Cfg := { tinyCfg with minKpGateBlockCount := 1, minDigitBlockCount := 1, mfMaxDigits := 3 }

/-- `ShortestSequenceIsAccepted`. -/
theorem witness_shortest_sequence :
    (1 ≤ least.minKpGateBlockCount ∧ 1 ≤ least.minDigitBlockCount ∧ 3 ≤ least.mfMaxDigits) ∧
    mfDecode least 0x05 = some 0x32 ∧ mfDecode least 0x30 = some 0x23 ∧
    (seizedMf (MfData.reset least) 1 7).state = .waitKp ∧ (seizedMf (MfData.reset least) 1 7).kpCount = 0 ∧
    (seizedMf (MfData.reset least) 1 7).ndigits = 0 ∧
    (seizedMf (MfData.reset least) 1 7).digits.length = least.mfMaxDigits + 1 ∧
    (seizedMf (MfData.reset least) 1 7).error = .ok ∧ (seizedMf (MfData.reset least) 1 7).cb = some 1 := by decide +kernel

/-- `InterdigitTimeoutDeliversTheDigits`: one frame short of the timeout, and exactly the timeout. -/
theorem witness_timeout :
    1 ≤ tinyCfg.mfInterdigitTimeout ∧ afterKp.state = .waitDigit ∧ afterKp.timer = 0 ∧
    (∀ c ∈ [FrameClass.silence, .invalid, .silence, .invalid, .silence], notValid c) ∧
    [FrameClass.silence, .invalid, .silence, .invalid].length < tinyCfg.mfInterdigitTimeout ∧
    [FrameClass.silence, .invalid, .silence, .invalid, .silence].length = tinyCfg.mfInterdigitTimeout := by
  refine ⟨by decide, rfl, rfl, ?_, by decide, by decide⟩
  intro c hc
  simp only [List.mem_cons, List.not_mem_nil, or_false] at hc
  rcases hc with rfl | rfl | rfl | rfl | rfl <;> simp [notValid]

/-- `ReceptionCompletesAtMostOnce`, `DecodeStateOnlyAdvances` and `WaitKpNeverTimesOut`. -/
theorem witness_settled :
    settled fresh ∧ settled { fresh with state := .waitRelease } ∧ fresh.state = .waitKp ∧
    (∀ c ∈ [FrameClass.silence, .valid 0x05], c ≠ .valid kpMask) := by
  refine ⟨⟨by decide, by decide⟩, ⟨by decide, by decide⟩, rfl, by decide⟩

/-- `KpStatesFollowTheirRules`: below and at the gate count, below and at the timeout. -/
theorem witness_kp_states :
    fresh.state = .waitKp ∧ fresh.kpCount + 1 < tinyCfg.minKpGateBlockCount ∧ FrameClass.invalid ≠ .valid kpMask ∧
    tinyCfg.minKpGateBlockCount ≤ { fresh with kpCount := 2 }.kpCount + 1 ∧
    { fresh with state := MfState.kpSilence, timer := 3 }.timer + 1 < tinyCfg.mfInterdigitTimeout ∧
    tinyCfg.mfInterdigitTimeout ≤ { fresh with state := MfState.kpSilence, timer := 4 }.timer + 1 := by decide +kernel

/-- R222, R228: a change of code restarts the count at 1, and a silent frame resets it. -/
theorem test_debounce_restarts :
    (feed tinyCfg [.valid 0x05, .valid 0x06] afterKp).1.digCount = 1 ∧
    (feed tinyCfg [.valid 0x05, .valid 0x06, .valid 0x06] afterKp).1.pend = some 0x33 ∧
    (feed tinyCfg [.valid 0x05, .invalid] afterKp).1.digCount = 0 := by decide +kernel

/-- The decoder with digit `c` pending. -/
def holding (c : Ascii) (timer : Nat) : MfData := { afterKp with state := .waitDigitSilence, pend := some c, timer := timer }

/-- `DigitStatesFollowTheirRules`: in WaitDigit a first frame, a change of code and one more frame of the same code, below and at the
count, a code without a row, runs one frame short of the count and exactly at it, the timer below and at the timeout; in
WaitDigitSilence a digit and a terminator, with room and without, the timer below and at the timeout. -/
theorem witness_digit_states :
    (afterKp.state = .waitDigit ∧ afterKp.digCount = 0 ∧ 1 < tinyCfg.minDigitBlockCount ∧ 2 = tinyCfg.minDigitBlockCount) ∧
    ((0x06 : Mask) ≠ { afterKp with cand := 0x05, digCount := 1 }.cand ∧
      tinyCfg.minDigitBlockCount ≤ { afterKp with cand := 0x05, digCount := 1 }.digCount + 1) ∧
    (mfDecode tinyCfg 0x05 = some 0x32 ∧ mfDecode tinyCfg 0x07 = none) ∧
    (notValid .silence ∧ notValid .invalid) ∧
    ({ afterKp with timer := 3 }.timer + 1 < tinyCfg.mfInterdigitTimeout ∧
      tinyCfg.mfInterdigitTimeout ≤ { afterKp with timer := 4 }.timer + 1) ∧
    ((holding 0x32 3).state = .waitDigitSilence ∧ (holding 0x32 3).pend = some 0x32 ∧ isTerminator 0x32 = false ∧
      isTerminator 0x23 = true) ∧
    ((holding 0x32 3).ndigits < tinyCfg.mfMaxDigits ∧ ¬ { holding 0x23 3 with ndigits := 4 }.ndigits < tinyCfg.mfMaxDigits) ∧
    (FrameClass.invalid ≠ .silence ∧ (holding 0x32 3).timer + 1 < tinyCfg.mfInterdigitTimeout ∧
      tinyCfg.mfInterdigitTimeout ≤ (holding 0x32 4).timer + 1) :=
  ⟨by decide +kernel, by decide +kernel, by decide +kernel, ⟨.inl rfl, .inr rfl⟩, by decide +kernel, by decide +kernel,
    by decide +kernel, by decide +kernel⟩

/-- `StepKeepsTheInvariant` and `LogGrowsAndConfigurationStays`: a state with the invariant and a command pending. -/
theorem witness_invariant : (port .task 0x0100 []).Inv ∧ ((after (step (port .task 0x0100 []))).map (·.ret)).isSome = true := by
  refine ⟨?_, by decide +kernel⟩
  have chan : ChanInv tinyCfg (ChannelInfo.reset tinyCfg) :=
    { free_idle := fun _ => rfl, didx_le := by decide, dlen_le := by decide, buffer := by decide, tw0 := by decide +kernel,
      tw1 := by decide +kernel, gains := by decide +kernel, mf_codes := fun h => absurd h (by decide),
      callback := fun h => absurd h (by decide), installed := fun h => absurd h (by decide),
      loop_len := fun h => absurd h (by decide), play_idx := fun h => absurd h (by decide),
      loop_idx := fun h => absurd h (by decide) }
  have mf : MfInv tinyCfg (MfData.reset tinyCfg) :=
    { desc_iff := by decide, settled := ⟨by decide, by decide⟩, ndigits_le := by decide, buffer := by decide,
      terminated := by decide, empty_before_kp := fun h => absurd h (by decide),
      nonempty_after_kp := fun h => absurd h (by decide), kp_first := fun h => absurd h (by decide),
      in_range := fun i h1 h2 => absurd h2 (Nat.not_lt_zero i),
      last_terminator := fun i h => absurd h (Nat.not_lt_zero (i + 1)), no_terminator := fun h => absurd h (by unfold receiving; decide),
      pending := fun h => absurd h (by decide), timer_lt := fun h => absurd h (by decide),
      kp_lt := fun h => absurd h (by decide), dig_lt := fun h => absurd h (by decide),
      callback := fun h => absurd rfl h }
  exact
    { cfg := test_tinycfg_wellformed, left := chan, right := chan, mf := mf, sampling := by decide, coeffs := rfl,
      frame := List.length_replicate, mem := rfl }

/-- `SetupEstablishesTheResetState`: a well-formed and an ill-formed configuration. -/
theorem witness_setup : Cfg.wellFormed tinyCfg = true ∧ Cfg.wellFormed { tinyCfg with adcBits := 17 } = false :=
  ⟨test_tinycfg_wellformed, by decide +kernel⟩

/-- `EnginesDoNotInterfere` and `EngineStepsCommute`: an instruction of each engine that completes. -/
theorem witness_engines :
    isTone (.tsCpt 0 1) = true ∧ isTone (.mfSeize 5) = false ∧
    ((after (execFrom .task (.tsCpt 0 1) oneOwned)).map (·.ret)).isSome = true ∧
    ((after (execFrom .task (.mfSeize 5) oneOwned)).map (·.mr.mf.state)) = some .waitKp := by decide +kernel

/-- `OwnershipChangesOnlyBySeizeAndRelease`: a seize and a release that change a flag. -/
theorem witness_ownership :
    (after (exec .tsSeize oneOwned)).map (fun t => (t.te.ch .right).owned) = some true ∧ (oneOwned.te.ch .right).owned = false ∧
    (after (exec (.tsRelease 0) oneOwned)).map (fun t => (t.te.ch .left).owned) = some false ∧
    (oneOwned.te.ch .left).owned = true := by decide +kernel

/-- `WaitReleaseIsLeftOnlyByRelease`: a release that leaves `WaitRelease`. -/
theorem witness_wait_release :
    (withMf { fresh with state := .waitRelease }).mr.mf.state = .waitRelease ∧
    (after (exec (.mfRelease 7) (withMf { fresh with state := .waitRelease }))).map (·.mr.mf.state) = some .idle := by
  decide +kernel

/-- `EnvironmentStepsTouchNoEngine`: each kind of environment step, on a machine that runs. -/
theorem witness_environment :
    running tiny ∧
    ([Input.adcFill .second [4095], .audioWrite 1 0 5, .strWrite 1 0 0x30, .driver .fail .ok].map fun inp =>
      ((after (step { tiny with inputs := [inp] })).map (·.inputs))) = [some [], some [], some [], some []] :=
  ⟨⟨rfl, test_tinycfg_wellformed⟩, by decide +kernel⟩

end Sys2Proof.Tests
end

section
/-! SUPPORT. One step of the machine and the environment's own inputs: what a step does once the port's first input is known, and
what an input writes (00_scope.md R15, R19; 20_memory.md R63 to R65; 45_mf_receiver.md R250). -/

namespace Sys2Proof.Machine

/-! ## A step of a running machine -/

theorem step_of_fetch_instr {s s' : State} {i : Instr} (hrun : running s) (hf : fetch s = .instr i s') :
    step s = exec i s' := by
  obtain ⟨hfatal, hcfg⟩ := hrun
  simp [step, hfatal, hcfg, hf]

theorem step_of_fetch_environment {s s' : State} (hrun : running s) (hf : fetch s = .environment s') :
    step s = .next s' := by
  obtain ⟨hfatal, hcfg⟩ := hrun
  simp [step, hfatal, hcfg, hf]

/-! ## What the port presents when the environment is first on it -/

theorem fetch_adcFill {s : State} {h : Half} {xs : List Sample} {rest : List Input}
    (hin : s.inputs = .adcFill h xs :: rest) :
    fetch s = .environment (adcFill { s with inputs := rest } h xs) := by simp [fetch, hin]

theorem fetch_audioWrite {s : State} {h : Handle} {i : Nat} {v : Sample} {rest : List Input}
    (hin : s.inputs = .audioWrite h i v :: rest) :
    fetch s = .environment (audioWrite { s with inputs := rest } h i v) := by simp [fetch, hin]

theorem fetch_strWrite {s : State} {h : Handle} {i : Nat} {c : Ascii} {rest : List Input}
    (hin : s.inputs = .strWrite h i c :: rest) :
    fetch s = .environment (strWrite { s with inputs := rest } h i c) := by simp [fetch, hin]

theorem fetch_driver {s : State} {start stop : DrvAnswer} {rest : List Input}
    (hin : s.inputs = .driver start stop :: rest) :
    fetch s = .environment (setDriver { s with inputs := rest } start stop) := by simp [fetch, hin]

/-! ## What an ADC fill leaves to be read -/

theorem adcIndex_eq_add (h : Half) (n : Nat) : adcIndex h n = adcIndex h 0 + n := by simp [adcIndex]

/-- A frame's element reads as the sample given for it, and as before where the list of samples is too short. -/
theorem readAdc_adcFill (s : State) (h : Half) (xs : List Sample) {n : Nat} (hn : n < frameN) :
    (adcFill s h xs).readAdc h n = xs.getD n (s.readAdc h n) := by
  simp only [State.readAdc, adcFill_env]
  rw [adcIndex_eq_add h n]
  by_cases hx : n < xs.length
  · have hlen : n < (xs.take frameN).length := by rw [List.length_take]; omega
    rw [Cells.read_writeList_inside _ _ _ _ hlen, List.getElem_take, List.getD_eq_getElem _ _ hx]
  · rw [Cells.read_writeList_outside _ _ _ _ (.inr (by rw [List.length_take]; omega)),
      List.getD_eq_default _ _ (by omega)]

theorem read_adcFill_other (s : State) (h : Half) (xs : List Sample) {a : Nat}
    (ha : ∀ n, n < frameN → a ≠ adcIndex h n) :
    Cells.read (adcFill s h xs).env.adc a = Cells.read s.env.adc a := by
  rw [adcFill_env]
  refine Cells.read_writeList_outside _ _ _ _ ?_
  by_contra hin
  rw [List.length_take] at hin
  refine ha (a - adcIndex h 0) (by omega) ?_
  rw [adcIndex_eq_add]
  omega

/-! ## The obligations about a step -/

/-- Settles O5. -/
theorem stepRunsTheDecodedInstruction : Obligations.StepRunsTheDecodedInstruction := by
  intro s r rest i hrun hin hdec
  exact step_of_fetch_instr hrun (fetch_request s r rest i hin hdec)

/-- Settles O60, by cases on the input: each is one write, whose reads the memory laws give. -/
theorem environmentStepsTouchNoEngine : Obligations.EnvironmentStepsTouchNoEngine := by
  intro s t inp rest hrun hin hnot hstep
  have next_eq : ∀ {t' : State}, fetch s = .environment t' → t' = t := fun hf =>
    Host.Outcome.next.inj ((step_of_fetch_environment hrun hf).symm.trans hstep)
  cases inp with
  | request r => exact absurd rfl (hnot r)
  | audioWrite h i v =>
    obtain rfl := next_eq (fetch_audioWrite hin)
    refine ⟨rfl, ?_, nofun, nofun, nofun⟩
    rintro _ _ _ ⟨⟩
    exact ⟨rfl, Cells.read_write_same _ _ _, fun a ha => Cells.read_write_other _ _ _ _ ha⟩
  | adcFill h xs =>
    obtain rfl := next_eq (fetch_adcFill hin)
    refine ⟨rfl, nofun, ?_, nofun, nofun⟩
    rintro _ _ ⟨⟩
    exact ⟨rfl, fun n hn => readAdc_adcFill _ h xs hn, fun a ha => read_adcFill_other _ h xs ha⟩
  | strWrite h i c =>
    obtain rfl := next_eq (fetch_strWrite hin)
    refine ⟨rfl, nofun, nofun, ?_, nofun⟩
    rintro _ _ _ ⟨⟩
    exact ⟨rfl, Cells.read_write_same _ _ _, fun a ha => Cells.read_write_other _ _ _ _ ha⟩
  | driver start stop =>
    obtain rfl := next_eq (fetch_driver hin)
    refine ⟨rfl, nofun, nofun, nofun, ?_⟩
    rintro _ _ ⟨⟩
    rfl

end Sys2Proof.Machine
end

section
/-! SUPPORT. The two engines share no state (00_scope.md R3): an instruction of one engine commutes with replacing the other engine
by any contents, so it neither reads nor writes it. -/

namespace Sys2Proof.Machine

/-- `te <- v`: the tone engine replaced whole, as `State.setMr` replaces the receiver. -/
def State.setTe (s : State) (v : ToneEngine) : State := { s with te := v }

@[simp] theorem State.setTe_te (s : State) (v : ToneEngine) : (s.setTe v).te = v := rfl
@[simp] theorem State.setTe_env (s : State) (v : ToneEngine) : (s.setTe v).env = s.env := rfl
theorem State.setTe_self (s : State) : s.setTe s.te = s := rfl
theorem State.setMr_self (s : State) : s.setMr s.mr = s := rfl

/-- The outcome with its next state, if there is one, changed by `f`. -/
def mapNext (f : State → State) : Host.Outcome State Fault Refusal → Host.Outcome State Fault Refusal
  | .next s => .next (f s)
  | .fault r => .fault r
  | .refused r => .refused r

@[simp] theorem mapNext_next (f : State → State) (s : State) : mapNext f (.next s) = .next (f s) := rfl

/-! ## A change of the next state goes through the shared operations; admission looks at the context only -/

section
variable {f : State → State} {s s' : State} {k k' : Host.Outcome State Fault Refusal}

theorem ite_mapNext {p : Prop} [Decidable p] {l l' : Host.Outcome State Fault Refusal} (hk : k' = mapNext f k)
    (hl : l' = mapNext f l) : (if p then k' else l') = mapNext f (if p then k else l) := by
  rw [hk, hl, apply_ite (mapNext f)]

theorem toneCommand_mapNext (hctx : s'.ctx = s.ctx) (hk : k' = mapNext f k) :
    toneCommand s' k' = mapNext f (toneCommand s k) := by
  subst hk
  unfold toneCommand
  rw [hctx]
  cases s.ctx <;> rfl

theorem receiverCommand_mapNext (hctx : s'.ctx = s.ctx) (hk : k' = mapNext f k) :
    receiverCommand s' k' = mapNext f (receiverCommand s k) := by
  subst hk
  unfold receiverCommand
  rw [hctx]
  cases s.ctx <;> rfl

theorem hardwareEvent_mapNext {c : Ctx} (hctx : s'.ctx = s.ctx) (hk : k' = mapNext f k) :
    hardwareEvent c s' k' = mapNext f (hardwareEvent c s k) := by
  subst hk
  unfold hardwareEvent
  rw [hctx]
  split <;> rfl

end

theorem withHalf_mapNext {f : State → State} {h : BitVec 4} {k k' : Half → Host.Outcome State Fault Refusal}
    (hk : ∀ half, k' half = mapNext f (k half)) : withHalf h k' = mapNext f (withHalf h k) := by
  unfold withHalf
  cases halfOf h with
  | some half => exact hk half
  | none => rfl

/-! ## Tone-engine instructions and the receiver -/

section
variable (s : State) (r : Receiver)

theorem withChannel_setMr {id : BitVec 4} {k k' : ChanId → Host.Outcome State Fault Refusal}
    (hk : ∀ c, k' c = mapNext (·.setMr r) (k c)) :
    withChannel (s.setMr r) id k' = mapNext (·.setMr r) (withChannel s id k) := by
  have hid : validId (s.setMr r) id = validId s id := rfl
  unfold withChannel
  rw [hid]
  cases validId s id with
  | some c => exact hk c
  | none => rfl

theorem execTsSeize_setMr : execTsSeize (s.setMr r) = mapNext (·.setMr r) (execTsSeize s) :=
  toneCommand_mapNext rfl (ite_mapNext rfl (ite_mapNext rfl rfl))

theorem execTsRelease_setMr (id : BitVec 4) :
    execTsRelease id (s.setMr r) = mapNext (·.setMr r) (execTsRelease id s) :=
  toneCommand_mapNext rfl (withChannel_setMr s r fun _ => rfl)

theorem execTsCpt_setMr (id kind : BitVec 4) :
    execTsCpt id kind (s.setMr r) = mapNext (·.setMr r) (execTsCpt id kind s) :=
  toneCommand_mapNext rfl (withChannel_setMr s r fun _ => by cases cptHead kind <;> rfl)

theorem sendDigits_setMr (mode : DigitMode) (head : ChState) (id : BitVec 4) (str cb : Word32) :
    sendDigits mode head id str cb (s.setMr r) = mapNext (·.setMr r) (sendDigits mode head id str cb s) := by
  refine toneCommand_mapNext rfl (withChannel_setMr s r fun c => ?_)
  simp only [State.setMr_cfg, State.setMr_env]
  cases handleOf str with
  | none => rfl
  | some strH =>
    cases handleOf cb with
    | none => rfl
    | some cbH =>
      dsimp only
      cases digitEncode s.cfg mode (readStr s.env.str strH) <;> rfl

theorem execTsSend_setMr (id : BitVec 4) (buf len cb : Word32) :
    execTsSend id buf len cb (s.setMr r) = mapNext (·.setMr r) (execTsSend id buf len cb s) :=
  toneCommand_mapNext rfl (withChannel_setMr s r fun _ => by cases handleOf buf <;> rfl)

theorem execTsSendLoop_setMr (id : BitVec 4) (buf len : Word32) :
    execTsSendLoop id buf len (s.setMr r) = mapNext (·.setMr r) (execTsSendLoop id buf len s) := by
  refine toneCommand_mapNext rfl (withChannel_setMr s r fun c => ?_)
  cases handleOf buf with
  | none => rfl
  | some bufH => exact ite_mapNext rfl rfl

theorem execTsStop_setMr (id : BitVec 4) : execTsStop id (s.setMr r) = mapNext (·.setMr r) (execTsStop id s) :=
  toneCommand_mapNext rfl (withChannel_setMr s r fun _ => rfl)

theorem tickPosition_setMr (h : Half) (p : Nat) : tickPosition h p (s.setMr r) = (tickPosition h p s).setMr r := rfl

theorem fillFrom_setMr (h : Half) (n p : Nat) : fillFrom h n p (s.setMr r) = (fillFrom h n p s).setMr r := by
  induction n generalizing p s with
  | zero => rfl
  | succ n ih =>
    rw [fillFrom, fillFrom, tickPosition_setMr]
    exact ih _ _

theorem execTsRequestBlock_setMr (half : BitVec 4) :
    execTsRequestBlock half (s.setMr r) = mapNext (·.setMr r) (execTsRequestBlock half s) := by
  refine hardwareEvent_mapNext rfl (withHalf_mapNext fun h => ?_)
  rw [State.setMr_cfg, fillFrom_setMr]
  rfl

/-- A tone-engine instruction does the same whatever the receiver holds, and leaves those contents as they are (R3). -/
theorem exec_setMr {i : Instr} (hi : isTone i = true) : exec i (s.setMr r) = mapNext (·.setMr r) (exec i s) := by
  cases i with
  | tsSeize => exact execTsSeize_setMr s r
  | tsRelease id => exact execTsRelease_setMr s r id
  | tsCpt id kind => exact execTsCpt_setMr s r id kind
  | tsSendMf id str cb => exact sendDigits_setMr s r .mf .sendMf id str cb
  | tsSendDtmf id str cb => exact sendDigits_setMr s r .dtmf .sendDtmf id str cb
  | tsSend id buf len cb => exact execTsSend_setMr s r id buf len cb
  | tsSendLoop id buf len => exact execTsSendLoop_setMr s r id buf len
  | tsStop id => exact execTsStop_setMr s r id
  | tsRequestBlock half => exact execTsRequestBlock_setMr s r half
  | _ => cases hi

end

/-! ## Receiver instructions and the tone engine -/

section
variable (s : State) (te : ToneEngine)

theorem execMfSeize_setTe (cb : Word32) :
    execMfSeize cb (s.setTe te) = mapNext (·.setTe te) (execMfSeize cb s) := by
  refine receiverCommand_mapNext rfl (ite_mapNext rfl ?_)
  cases handleOf cb with
  | none => rfl
  | some cbH =>
    rw [State.setTe_env]
    cases s.env.drvStart <;> rfl

theorem execMfRelease_setTe (desc : Word32) :
    execMfRelease desc (s.setTe te) = mapNext (·.setTe te) (execMfRelease desc s) := by
  refine receiverCommand_mapNext rfl (ite_mapNext rfl ?_)
  rw [State.setTe_env]
  cases s.env.drvStop <;> rfl

theorem rawFrom_setTe (h : Half) (n i : Nat) : rawFrom (s.setTe te) h n i = rawFrom s h n i := by
  induction n generalizing i with
  | zero => rfl
  | succ n ih => exact congrArg _ (ih _)

theorem rawFrame_setTe (h : Half) : rawFrame (s.setTe te) h = rawFrame s h := rawFrom_setTe s te h frameN 0

theorem processFrame_setTe (raw : List Nat) : processFrame (s.setTe te) raw = (processFrame s raw).setTe te := rfl

theorem execMfHandleBuffer_setTe (half : BitVec 4) :
    execMfHandleBuffer half (s.setTe te) = mapNext (·.setTe te) (execMfHandleBuffer half s) := by
  refine hardwareEvent_mapNext rfl (withHalf_mapNext fun h => ?_)
  rw [rawFrame_setTe, processFrame_setTe]
  exact ite_mapNext rfl (ite_mapNext rfl rfl)

/-- A receiver instruction does the same whatever the tone engine holds, and leaves those contents as they are (R3). -/
theorem exec_setTe {i : Instr} (hi : isTone i = false) : exec i (s.setTe te) = mapNext (·.setTe te) (exec i s) := by
  cases i with
  | mfSeize cb => exact execMfSeize_setTe s te cb
  | mfRelease desc => exact execMfRelease_setTe s te desc
  | mfHandleBuffer half => exact execMfHandleBuffer_setTe s te half
  | _ => cases hi

end

/-! ## Noninterference -/

section
variable {i : Instr} {s t : State}

theorem exec_setMr_next (hi : isTone i = true) (h : exec i s = .next t) (r : Receiver) :
    exec i (s.setMr r) = .next (t.setMr r) := by
  rw [exec_setMr s r hi, h, mapNext_next]

theorem exec_setTe_next (hi : isTone i = false) (h : exec i s = .next t) (te : ToneEngine) :
    exec i (s.setTe te) = .next (t.setTe te) := by
  rw [exec_setTe s te hi, h, mapNext_next]

/-- Replacing the receiver by itself shows that a tone-engine instruction ends with the receiver it began with. -/
theorem exec_mr_of_isTone (hi : isTone i = true) (h : exec i s = .next t) : t.mr = s.mr := by
  have hself := exec_setMr_next hi h s.mr
  rw [State.setMr_self] at hself
  have heq : t = t.setMr s.mr := Host.Outcome.next.inj (h.symm.trans hself)
  exact (congrArg State.mr heq).trans (State.setMr_mr t s.mr)

/-- Replacing the tone engine by itself shows that a receiver instruction ends with the tone engine it began with. -/
theorem exec_te_of_not_isTone (hi : isTone i = false) (h : exec i s = .next t) : t.te = s.te := by
  have hself := exec_setTe_next hi h s.te
  rw [State.setTe_self] at hself
  have heq : t = t.setTe s.te := Host.Outcome.next.inj (h.symm.trans hself)
  exact (congrArg State.te heq).trans (State.setTe_te t s.te)

end

/-- Settles O55: each engine's instructions commute with replacing the other engine. -/
theorem enginesDoNotInterfere : Obligations.EnginesDoNotInterfere := by
  intro i s t h
  constructor
  · intro hi
    exact ⟨exec_mr_of_isTone hi h, fun r => ⟨t.setMr r, exec_setMr_next hi h r, rfl, rfl⟩⟩
  · intro hi
    exact ⟨exec_te_of_not_isTone hi h, fun te => ⟨t.setTe te, exec_setTe_next hi h te, rfl, rfl⟩⟩

end Sys2Proof.Machine
end

section
/-! SUPPORT. What a tick leaves of a channel: everything a command installs (10_state.md R22, R27; 41_channel_fsm.md R120 to R147). -/

namespace Sys2Proof.Machine

/-- The second channel holds what commands installed in the first (the writers column of R22, R27). -/
structure SameInstalled (ch ch' : ChannelInfo) : Prop where
  owned : ch'.owned = ch.owned
  digits : ch'.digits = ch.digits
  dlen : ch'.dlen = ch.dlen
  cb : ch'.cb = ch.cb
  abuf : ch'.abuf = ch.abuf
  alen : ch'.alen = ch.alen

theorem SameInstalled.refl (ch : ChannelInfo) : SameInstalled ch ch := ⟨rfl, rfl, rfl, rfl, rfl, rfl⟩

theorem SameInstalled.trans {a b c : ChannelInfo} (hab : SameInstalled a b) (hbc : SameInstalled b c) : SameInstalled a c :=
  ⟨hbc.owned.trans hab.owned, hbc.digits.trans hab.digits, hbc.dlen.trans hab.dlen, hbc.cb.trans hab.cb,
    hbc.abuf.trans hab.abuf, hbc.alen.trans hab.alen⟩

theorem toneEndTick_sameInstalled (cfg : Cfg) (ch : ChannelInfo) (next : ChState) (timer : Nat) :
    SameInstalled ch (toneEndTick cfg ch next timer).ch := by
  rcases toneEndTick_cases cfg ch next timer with ⟨-, e⟩ | ⟨-, -, e⟩ | ⟨-, -, e⟩ <;> rw [e] <;>
    exact ⟨rfl, rfl, rfl, rfl, rfl, rfl⟩

theorem silenceTick_sameInstalled {ch : ChannelInfo} {f : ChannelInfo → ChannelInfo} (hf : SameInstalled ch (f ch)) :
    SameInstalled ch (silenceTick ch f).ch := by
  rcases silenceTick_cases ch f with ⟨-, e⟩ | ⟨-, e⟩ <;> rw [e]
  · exact ⟨rfl, rfl, rfl, rfl, rfl, rfl⟩
  · exact hf

theorem sendHead_sameInstalled (cfg : Cfg) (c : ChanId) (ch : ChannelInfo) {load : DigitCode → ChannelInfo → ChannelInfo}
    (hload : ∀ d ch, SameInstalled ch (load d ch)) : SameInstalled ch (sendHead cfg c ch load).ch := by
  rcases sendHead_cases cfg c ch load with ⟨-, e⟩ | ⟨-, -, e⟩ | ⟨-, e⟩ <;> rw [e]
  · exact ⟨rfl, rfl, rfl, rfl, rfl, rfl⟩
  · exact ⟨rfl, rfl, rfl, rfl, rfl, rfl⟩
  · exact .trans (b := { ch with didx := ch.didx + 1 }) ⟨rfl, rfl, rfl, rfl, rfl, rfl⟩ (hload _ _)

theorem chTick_sameInstalled (cfg : Cfg) (audio : Cells 16) (c : ChanId) (ch : ChannelInfo) :
    SameInstalled ch (chTick cfg audio c ch).ch := by
  unfold chTick
  cases ch.state with
  | busyWaitToneEnd | ringingWaitToneEnd | sendMfWaitToneEnd | sendDtmfWaitToneEnd =>
    exact toneEndTick_sameInstalled _ _ _ _
  | busyWaitSilenceEnd | ringingWaitSilenceEnd | sendMfWaitSilenceEnd | sendDtmfWaitSilenceEnd =>
    exact silenceTick_sameInstalled ⟨rfl, rfl, rfl, rfl, rfl, rfl⟩
  | sendMf | sendDtmf =>
    exact sendHead_sameInstalled _ _ _ fun _ _ => ⟨rfl, rfl, rfl, rfl, rfl, rfl⟩
  | sendAudioWait =>
    dsimp only [tickSendAudioWait]
    split <;> exact ⟨rfl, rfl, rfl, rfl, rfl, rfl⟩
  | _ => exact ⟨rfl, rfl, rfl, rfl, rfl, rfl⟩

theorem chanAfter_sameInstalled (cfg : Cfg) (audio : Cells 16) (c : ChanId) (n : Nat) (ch : ChannelInfo) :
    SameInstalled ch (chanAfter cfg audio c n ch) := by
  induction n generalizing ch with
  | zero => exact .refl ch
  | succ n ih => exact (chTick_sameInstalled cfg audio c ch).trans (ih _)

/-- Settles O29, by induction on the number of ticks. -/
theorem ticksKeepWhatCommandsInstall : Obligations.TicksKeepWhatCommandsInstall := by
  intro cfg audio c ch n
  obtain ⟨howned, hdigits, hdlen, hcb, habuf, halen⟩ := chanAfter_sameInstalled cfg audio c n ch
  exact ⟨howned, hdigits, hdlen, hcb, habuf, halen⟩

end Sys2Proof.Machine
end

section
/-! SUPPORT. Where one frame takes the decoder (10_state.md R34; 44_mf_decoder.md R220 to R234). -/

namespace Sys2Proof.Machine

/-- The rule of a state ends in another state than it began with (R226 to R229), transient states left out. -/
inductive MfAdvance : MfState → MfState → Prop
  | kpAccepted : MfAdvance .waitKp .kpSilence
  | kpEnded : MfAdvance .kpSilence .waitDigit
  | digitDecoded : MfAdvance .waitDigit .waitDigitSilence
  | digitEnded : MfAdvance .waitDigitSilence .waitDigit

/-- A rule has stayed, advanced, or ended the reception. -/
def MfMoves (st st' : MfState) : Prop := st' = st ∨ MfAdvance st st' ∨ st' = .timeout ∨ st' = .done

theorem runTimer_moves (cfg : Cfg) (mf : MfData) : MfMoves mf.state (runTimer cfg mf).state := by
  rcases runTimer_cases cfg mf with ⟨-, e⟩ | ⟨-, e⟩ <;> rw [e]
  · exact .inr (.inr (.inl rfl))
  · exact .inl rfl

theorem debounce_state (m : Mask) (mf : MfData) : (debounce m mf).state = mf.state := by
  unfold debounce; split <;> rfl

theorem mfdWaitKp_moves (cfg : Cfg) (cls : FrameClass) {mf : MfData} (h : mf.state = .waitKp) :
    MfMoves .waitKp (mfdWaitKp cfg cls mf).state := by
  unfold mfdWaitKp
  split
  · split
    · exact .inr (.inl .kpAccepted)
    · exact .inl h
  · exact .inl h

theorem mfdKpSilence_moves (cfg : Cfg) (cls : FrameClass) {mf : MfData} (h : mf.state = .kpSilence) :
    MfMoves .kpSilence (mfdKpSilence cfg cls mf).state := by
  cases cls with
  | silence => exact .inr (.inl .kpEnded)
  | valid m => exact h ▸ runTimer_moves cfg mf
  | invalid => exact h ▸ runTimer_moves cfg mf

theorem mfdWaitDigit_moves (cfg : Cfg) (cls : FrameClass) {mf : MfData} (h : mf.state = .waitDigit) :
    MfMoves .waitDigit (mfdWaitDigit cfg cls mf).state := by
  cases cls with
  | silence => exact h ▸ runTimer_moves cfg { mf with digCount := 0 }
  | invalid => exact h ▸ runTimer_moves cfg { mf with digCount := 0 }
  | valid m =>
    have hstay : (debounce m mf).state = .waitDigit := (debounce_state m mf).trans h
    dsimp only [mfdWaitDigit]
    split
    · split
      · exact .inr (.inl .digitDecoded)
      · exact .inl hstay
    · exact .inl hstay

theorem mfdWaitDigitSilence_moves (cfg : Cfg) (cls : FrameClass) {mf : MfData} (h : mf.state = .waitDigitSilence) :
    MfMoves .waitDigitSilence (mfdWaitDigitSilence cfg cls mf).state := by
  cases cls with
  | valid m => exact h ▸ runTimer_moves cfg mf
  | invalid => exact h ▸ runTimer_moves cfg mf
  | silence =>
    dsimp only [mfdWaitDigitSilence]
    split
    · exact .inr (.inr (.inr rfl))
    · exact .inr (.inl .digitEnded)

theorem mfdState_moves (cfg : Cfg) (cls : FrameClass) (mf : MfData) : MfMoves mf.state (mfdState cfg cls mf).state := by
  unfold mfdState
  cases h : mf.state with
  | waitKp => exact mfdWaitKp_moves cfg cls h
  | kpSilence => exact mfdKpSilence_moves cfg cls h
  | waitDigit => exact mfdWaitDigit_moves cfg cls h
  | waitDigitSilence => exact mfdWaitDigitSilence_moves cfg cls h
  | idle | timeout | done | waitRelease => exact .inl h

/-- One frame: the decoder stays, advances, or ends in `WaitRelease` (R230). -/
theorem mfdStep_state (cfg : Cfg) (cls : FrameClass) (mf : MfData) :
    (mfdStep cfg cls mf).1.state = mf.state ∨ MfAdvance mf.state (mfdStep cfg cls mf).1.state ∨
      (mfdStep cfg cls mf).1.state = .waitRelease := by
  unfold mfdStep
  rcases mfdChain_cases (mfdState cfg cls mf) with ⟨-, e⟩ | ⟨-, e⟩ | ⟨hto, hdo, e⟩ <;> rw [e]
  · exact .inr (.inr rfl)
  · exact .inr (.inr rfl)
  · rcases mfdState_moves cfg cls mf with h | h | h | h
    · exact .inl h
    · exact .inr (.inl h)
    · exact absurd h hto
    · exact absurd h hdo

theorem MfAdvance.settled {st st' : MfState} (h : MfAdvance st st') : st' ≠ .timeout ∧ st' ≠ .done := by
  cases h <;> decide

theorem MfAdvance.ne_idle {st st' : MfState} (h : MfAdvance st st') : st' ≠ .idle := by
  cases h <;> decide

/-- Only the per-digit loop goes back to a lower state (R34). -/
theorem MfAdvance.code_le {st st' : MfState} (h : MfAdvance st st') :
    st.code.toNat ≤ st'.code.toNat ∨ (st = .waitDigitSilence ∧ st' = .waitDigit) := by
  cases h <;> decide

theorem MfState.code_le_waitRelease (st : MfState) : st.code.toNat ≤ MfState.waitRelease.code.toNat := by
  cases st <;> decide

/-- Settles O50. -/
theorem decodeStateOnlyAdvances : Obligations.DecodeStateOnlyAdvances := by
  intro cfg cls mf hset
  unfold settled
  rcases mfdStep_state cfg cls mf with h | h | h
  · rw [h]
    exact ⟨hset, .inl le_rfl⟩
  · exact ⟨h.settled, h.code_le⟩
  · rw [h]
    exact ⟨by decide, .inl (MfState.code_le_waitRelease mf.state)⟩

end Sys2Proof.Machine
end

section
/-! SUPPORT. What an instruction can do when it completes, said once: one inversion lemma for `exec`, and the frames that follow from
it (20_memory.md R74; 42_tone_engine.md R170 to R182; 45_mf_receiver.md R250 to R257). -/

namespace Sys2Proof.Machine

/-! ## The ways an instruction ends -/

/-- What a tone-engine command that succeeds writes into a channel: the command, the new contents, the return value (R171 to R178). -/
inductive ChannelWrite (s : State) (c : ChanId) : Instr → ChannelInfo → Ret → Prop
  | seize : (s.te.ch c).owned = false → ChannelWrite s c .tsSeize (claimed (s.te.ch c)) (.channel c)
  | release : (s.te.ch c).owned = true →
      ChannelWrite s c (.tsRelease c.id) { s.te.ch c with state := .idle, owned := false, cb := none } (.bool true)
  | cpt {kind : BitVec 4} {head : ChState} : (s.te.ch c).owned = true → cptHead kind = some head →
      ChannelWrite s c (.tsCpt c.id kind) { s.te.ch c with state := head } (.bool true)
  | sendMf {str cb : Word32} {codes : List DigitCode} {chars : List Ascii} {cbH : Handle} : (s.te.ch c).owned = true →
      digitEncode s.cfg .mf chars = some codes →
      ChannelWrite s c (.tsSendMf c.id str cb) (installDigits (s.te.ch c) codes cbH .sendMf) (.bool true)
  | sendDtmf {str cb : Word32} {codes : List DigitCode} {chars : List Ascii} {cbH : Handle} : (s.te.ch c).owned = true →
      digitEncode s.cfg .dtmf chars = some codes →
      ChannelWrite s c (.tsSendDtmf c.id str cb) (installDigits (s.te.ch c) codes cbH .sendDtmf) (.bool true)
  | send {buf len cb : Word32} {bufH : Handle} : (s.te.ch c).owned = true →
      ChannelWrite s c (.tsSend c.id buf len cb)
        { s.te.ch c with abuf := some bufH, alen := len.toNat, cb := handleOf cb, state := .sendAudio } (.bool true)
  | sendLoop {buf len : Word32} {bufH : Handle} : (s.te.ch c).owned = true → len ≠ 0 →
      ChannelWrite s c (.tsSendLoop c.id buf len)
        { s.te.ch c with abuf := some bufH, alen := len.toNat, cb := none, state := .sendAudioLoop } (.bool true)
  | stop : (s.te.ch c).owned = true → ChannelWrite s c (.tsStop c.id) { s.te.ch c with state := .idle } (.bool true)

/-- The states an instruction can complete in. -/
inductive Completes (i : Instr) (s : State) : State → Prop
  /-- A synchronous error (R270). -/
  | rejected (v : Ret) (kind : ErrorKind) : Completes i s (s.reject v kind)
  /-- The driver failed (R279). -/
  | fatal (kind : ErrorKind) : Completes i s { s with fatal := true, ret := .nothing, diag := some kind }
  /-- A tone-engine command wrote its channel. -/
  | channel {c : ChanId} {v : ChannelInfo} {r : Ret} : ChannelWrite s c i v r → Completes i s ((s.setCh c v).respond r)
  /-- `TS_REQUEST_BLOCK` filled a half (R179). -/
  | block (h : Half) : Completes i s ((fillFrom h (2 * s.cfg.blockFrames) 0 s).respond .nothing)
  /-- `MF_SEIZE` began a reception (R251). -/
  | seized (cb : Handle) : s.mr.mf.state = .idle →
      Completes i s ((({ s with draws := s.draws + 1 }.setSampling true).setMf
        (seizedMf s.mr.mf cb (drawDescriptor s.draws))).respond (.desc (drawDescriptor s.draws)))
  /-- `MF_RELEASE` ended one (R253). -/
  | released : Completes i s (((s.setSampling false).setMf (releasedMf s.mr.mf)).respond (.bool true))
  /-- A frame event outside reception (R255). -/
  | skipped : Completes i s (s.respond .nothing)
  /-- A frame event in reception (R255). -/
  | frame (h : Half) : s.mr.mf.state ≠ .idle → s.mr.mf.state ≠ .waitRelease →
      Completes i s ((processFrame s (rawFrame s h)).respond .nothing)

section
variable {i : Instr} {s t : State}

/-- A command with an id completes in a state of its body, run on the owned channel the id names, or fails (R170). -/
theorem withChannel_completes {id : BitVec 4} {k : ChanId → Host.Outcome State Fault Refusal}
    (hk : ∀ c : ChanId, id = c.id → (s.te.ch c).owned = true → k c = .next t → Completes i s t)
    (h : toneCommand s (withChannel s id k) = .next t) : Completes i s t := by
  have hbody := (toneCommand_next h).2
  rcases withChannel_cases s id k with ⟨c, hid, howned, e⟩ | ⟨-, e⟩ <;> rw [e] at hbody
  · exact hk c hid howned hbody
  · cases hbody
    exact .rejected _ _

theorem execTsSeize_completes (h : execTsSeize s = .next t) : Completes .tsSeize s t := by
  have hbody := (toneCommand_next h).2
  split at hbody
  · next hfree => cases hbody; exact .channel (.seize hfree)
  · split at hbody
    · next hfree => cases hbody; exact .channel (.seize hfree)
    · cases hbody; exact .rejected _ _

theorem execTsRelease_completes {id : BitVec 4} (h : execTsRelease id s = .next t) : Completes (.tsRelease id) s t := by
  refine withChannel_completes (fun c hid howned hbody => ?_) h
  cases hid; cases hbody
  exact .channel (.release howned)

theorem execTsCpt_completes {id kind : BitVec 4} (h : execTsCpt id kind s = .next t) : Completes (.tsCpt id kind) s t := by
  refine withChannel_completes (fun c hid howned hbody => ?_) h
  cases hid
  split at hbody
  · next hhead => cases hbody; exact .channel (.cpt howned hhead)
  · cases hbody; exact .rejected _ _

/-- Both outpulsing commands: a string is installed only when it encodes (R174, R175). -/
theorem sendDigits_completes {mode : DigitMode} {head : ChState} {id : BitVec 4} {str cb : Word32}
    (hwrite : ∀ (c : ChanId) (codes : List DigitCode) (chars : List Ascii) (cbH : Handle), id = c.id →
      (s.te.ch c).owned = true → digitEncode s.cfg mode chars = some codes →
      ChannelWrite s c i (installDigits (s.te.ch c) codes cbH head) (.bool true))
    (h : sendDigits mode head id str cb s = .next t) : Completes i s t := by
  refine withChannel_completes (fun c hid howned hbody => ?_) h
  split at hbody
  · split at hbody
    · next hcodes => cases hbody; exact .channel (hwrite c _ _ _ hid howned hcodes)
    · cases hbody; exact .rejected _ _
  · cases hbody; exact .rejected _ _

theorem execTsSend_completes {id : BitVec 4} {buf len cb : Word32} (h : execTsSend id buf len cb s = .next t) :
    Completes (.tsSend id buf len cb) s t := by
  refine withChannel_completes (fun c hid howned hbody => ?_) h
  cases hid
  split at hbody
  · cases hbody; exact .channel (.send howned)
  · cases hbody; exact .rejected _ _

theorem execTsSendLoop_completes {id : BitVec 4} {buf len : Word32} (h : execTsSendLoop id buf len s = .next t) :
    Completes (.tsSendLoop id buf len) s t := by
  refine withChannel_completes (fun c hid howned hbody => ?_) h
  cases hid
  split at hbody
  · split at hbody
    · cases hbody; exact .rejected _ _
    · next hlen => cases hbody; exact .channel (.sendLoop howned hlen)
  · cases hbody; exact .rejected _ _

theorem execTsStop_completes {id : BitVec 4} (h : execTsStop id s = .next t) : Completes (.tsStop id) s t := by
  refine withChannel_completes (fun c hid howned hbody => ?_) h
  cases hid; cases hbody
  exact .channel (.stop howned)

/-- An event with a half index that completes ran its body on a half. -/
theorem hardwareEvent_withHalf_next {signal : Ctx} {half : BitVec 4} {k : Half → Host.Outcome State Fault Refusal}
    (h : hardwareEvent signal s (withHalf half k) = .next t) : ∃ hf, k hf = .next t := by
  have hbody := (hardwareEvent_next h).2
  rcases withHalf_cases half k with ⟨hf, -, e⟩ | ⟨-, e⟩ <;> rw [e] at hbody
  · exact ⟨hf, hbody⟩
  · cases hbody

theorem execTsRequestBlock_completes {half : BitVec 4} (h : execTsRequestBlock half s = .next t) :
    Completes (.tsRequestBlock half) s t := by
  obtain ⟨hf, hbody⟩ := hardwareEvent_withHalf_next h
  cases hbody
  exact .block hf

theorem execMfSeize_completes {cb : Word32} (h : execMfSeize cb s = .next t) : Completes (.mfSeize cb) s t := by
  have hbody := (receiverCommand_next h).2
  split at hbody
  · cases hbody; exact .rejected _ _
  · next hidle =>
    split at hbody
    · cases hbody; exact .rejected _ _
    · split at hbody
      · cases hbody; exact .fatal _
      · cases hbody; exact .seized _ (not_not.1 hidle)

theorem execMfRelease_completes {desc : Word32} (h : execMfRelease desc s = .next t) : Completes (.mfRelease desc) s t := by
  have hbody := (receiverCommand_next h).2
  split at hbody
  · cases hbody; exact .rejected _ _
  · split at hbody
    · cases hbody; exact .fatal _
    · cases hbody; exact .released

theorem execMfHandleBuffer_completes {half : BitVec 4} (h : execMfHandleBuffer half s = .next t) :
    Completes (.mfHandleBuffer half) s t := by
  obtain ⟨hf, hbody⟩ := hardwareEvent_withHalf_next h
  split at hbody
  · cases hbody; exact .skipped
  · next hreceiving =>
    obtain ⟨hidle, hrelease⟩ := not_or.1 hreceiving
    split at hbody
    · cases hbody; exact .frame hf hidle hrelease
    · cases hbody

/-- Everything an instruction that completes can have done. -/
theorem exec_completes (h : exec i s = .next t) : Completes i s t := by
  cases i with
  | tsSeize => exact execTsSeize_completes h
  | tsRelease id => exact execTsRelease_completes h
  | tsCpt id kind => exact execTsCpt_completes h
  | tsSendMf id str cb => exact sendDigits_completes (fun _ _ _ _ hid howned he => hid ▸ .sendMf howned he) h
  | tsSendDtmf id str cb => exact sendDigits_completes (fun _ _ _ _ hid howned he => hid ▸ .sendDtmf howned he) h
  | tsSend id buf len cb => exact execTsSend_completes h
  | tsSendLoop id buf len => exact execTsSendLoop_completes h
  | tsStop id => exact execTsStop_completes h
  | tsRequestBlock half => exact execTsRequestBlock_completes h
  | mfSeize cb => exact execMfSeize_completes h
  | mfRelease desc => exact execMfRelease_completes h
  | mfHandleBuffer half => exact execMfHandleBuffer_completes h

end

/-! ## The multiplexer -/

/-- What every position keeps holds after a block. -/
theorem fillFrom_induction {P : State → Prop} {h : Half} (hP : ∀ p s, P s → P (tickPosition h p s)) (n p : Nat) (s : State)
    (hs : P s) : P (fillFrom h n p s) := by
  induction n generalizing p s with
  | zero => exact hs
  | succ n ih => exact ih _ _ (hP p s hs)

theorem tickPosition_log (h : Half) (p : Nat) (s : State) :
    (tickPosition h p s).log = s.log ++ (chTick s.cfg s.env.audio (ownerOf p) (s.te.ch (ownerOf p))).events := rfl

/-- A position ticks the channel that owns it and leaves the other alone (R179). -/
theorem tickPosition_ch (h : Half) (p : Nat) (s : State) (c : ChanId) :
    (tickPosition h p s).te.ch c =
      if c = ownerOf p then (chTick s.cfg s.env.audio c (s.te.ch c)).ch else s.te.ch c := by
  have hset : (tickPosition h p s).te.ch c =
      (s.te.setCh (ownerOf p) (chTick s.cfg s.env.audio (ownerOf p) (s.te.ch (ownerOf p))).ch).ch c := by
    cases c <;> rfl
  rw [hset]
  split
  · next hc => rw [hc, ToneEngine.setCh_ch]
  · next hc => exact ToneEngine.setCh_ch_other _ _ _ _ hc

/-- A block leaves in both channels what commands installed (R22, R27). -/
theorem fillFrom_sameInstalled (h : Half) (n p : Nat) (s : State) (c : ChanId) :
    SameInstalled (s.te.ch c) ((fillFrom h n p s).te.ch c) := by
  refine fillFrom_induction (P := fun t => SameInstalled (s.te.ch c) (t.te.ch c)) (fun p t ht => ?_) n p s (.refl _)
  rw [tickPosition_ch]
  split
  · exact ht.trans (chTick_sameInstalled _ _ _ _)
  · exact ht

/-! ## Configuration, event log and fatal flag -/

/-- What no instruction undoes (R37, R39, R279). -/
structure Grows (s t : State) : Prop where
  cfg : t.cfg = s.cfg
  log : ∃ es, t.log = s.log ++ es
  fatal : s.fatal = true → t.fatal = true

theorem Grows.of_eq {s t : State} (hcfg : t.cfg = s.cfg) (hlog : t.log = s.log) (hfatal : s.fatal = true → t.fatal = true) :
    Grows s t := ⟨hcfg, ⟨[], by rw [hlog, List.append_nil]⟩, hfatal⟩

theorem Grows.trans {s t u : State} (hst : Grows s t) (htu : Grows t u) : Grows s u := by
  obtain ⟨es, hes⟩ := hst.log
  obtain ⟨fs, hfs⟩ := htu.log
  exact ⟨htu.cfg.trans hst.cfg, ⟨es ++ fs, by rw [hfs, hes, List.append_assoc]⟩, fun hf => htu.fatal (hst.fatal hf)⟩

theorem tickPosition_grows (h : Half) (p : Nat) (s : State) : Grows s (tickPosition h p s) :=
  ⟨rfl, ⟨_, tickPosition_log h p s⟩, id⟩

theorem fillFrom_grows (h : Half) (n p : Nat) (s : State) : Grows s (fillFrom h n p s) :=
  fillFrom_induction (P := Grows s) (fun p t ht => ht.trans (tickPosition_grows h p t)) n p s (.of_eq rfl rfl id)

theorem processFrame_grows (s : State) (raw : List Nat) : Grows s (processFrame s raw) := ⟨rfl, ⟨_, rfl⟩, id⟩

theorem exec_grows {i : Instr} {s t : State} (h : exec i s = .next t) : Grows s t := by
  cases exec_completes h with
  | fatal kind => exact .of_eq rfl rfl fun _ => rfl
  | block hf => exact (fillFrom_grows hf _ 0 s).trans (.of_eq rfl rfl id)
  | frame hf => exact (processFrame_grows s _).trans (.of_eq rfl rfl id)
  | rejected | channel | seized | released | skipped => exact .of_eq rfl rfl id

/-! ## What the port presents -/

/-- The ways the port's first input changes the state before an instruction: it is taken off and its context noted, or it is a
step of the environment. -/
inductive Presents (s : State) : Fetched → Prop
  | waits : Presents s .waits
  | bad (why : DecodeError) : Presents s (.bad why)
  | instr (i : Instr) (r : Request) (rest : List Input) : Presents s (.instr i (s.accept r rest))
  | adcFill (h : Half) (samples : List Sample) (rest : List Input) :
      Presents s (.environment (adcFill { s with inputs := rest } h samples))
  | audioWrite (h : Handle) (i : Nat) (v : Sample) (rest : List Input) :
      Presents s (.environment (audioWrite { s with inputs := rest } h i v))
  | strWrite (h : Handle) (i : Nat) (c : Ascii) (rest : List Input) :
      Presents s (.environment (strWrite { s with inputs := rest } h i c))
  | driver (start stop : DrvAnswer) (rest : List Input) :
      Presents s (.environment (setDriver { s with inputs := rest } start stop))

theorem fetch_presents (s : State) : Presents s (fetch s) := by
  unfold fetch
  split
  · exact .waits
  · split
    · exact .instr _ _ _
    · exact .bad _
  · exact .adcFill _ _ _
  · exact .audioWrite _ _ _ _
  · exact .strWrite _ _ _ _
  · exact .driver _ _ _

/-- A step that answers a next state waited, executed an instruction, or was the environment's. -/
theorem step_next {s t : State} (h : step s = .next t) :
    t = s ∨ (∃ i r rest, exec i (s.accept r rest) = .next t) ∨ Presents s (.environment t) := by
  have hp := fetch_presents s
  rcases step_cases s with ⟨-, e⟩ | ⟨-, -, e⟩ | ⟨-, -, ⟨-, e⟩ | ⟨i, u, hf, e⟩ | ⟨why, -, e⟩ | ⟨u, hf, e⟩⟩ <;> rw [e] at h
  · cases h
  · cases h
  · cases h; exact .inl rfl
  · rw [hf] at hp
    cases hp with
    | instr _ r rest => exact .inr (.inl ⟨i, r, rest, h⟩)
  · cases h
  · cases h; exact .inr (.inr (hf ▸ hp))

/-- Settles O57. -/
theorem logGrowsAndConfigurationStays : Obligations.LogGrowsAndConfigurationStays := by
  constructor
  · intro i s t h
    have hg := exec_grows h
    exact ⟨hg.cfg, hg.log, hg.fatal⟩
  · intro s t h
    have hg : Grows s t := by
      rcases step_next h with rfl | ⟨i, r, rest, he⟩ | henv
      · exact .of_eq rfl rfl id
      · exact Grows.trans (t := s.accept r rest) (.of_eq rfl rfl id) (exec_grows he)
      · cases henv <;> exact .of_eq rfl rfl id
    exact ⟨hg.cfg, hg.log⟩

/-! ## Ownership -/

/-- A write of channel `c` that changes its ownership flag is a seize or a release of it. -/
theorem ChannelWrite.of_owned_ne {s : State} {c : ChanId} {i : Instr} {v : ChannelInfo} {r : Ret} (hw : ChannelWrite s c i v r)
    (hne : v.owned ≠ (s.te.ch c).owned) :
    (i = .tsSeize ∧ (s.te.ch c).owned = false ∧ r = .channel c) ∨ (i = .tsRelease c.id ∧ (s.te.ch c).owned = true) := by
  cases hw with
  | seize hfree => exact .inl ⟨rfl, hfree, rfl⟩
  | release howned => exact .inr ⟨rfl, howned⟩
  | cpt | sendMf | sendDtmf | send | sendLoop | stop => exact absurd rfl hne

/-- Settles O58: a completed instruction changes a channel's flag only where it writes that channel. -/
theorem ownershipChangesOnlyBySeizeAndRelease : Obligations.OwnershipChangesOnlyBySeizeAndRelease := by
  intro i s t c h hne
  cases exec_completes h with
  | @channel d v r hw =>
    by_cases hcd : c = d
    · subst hcd
      have hv : (((s.setCh c v).respond r).te.ch c).owned = v.owned := congrArg _ (ToneEngine.setCh_ch s.te c v)
      exact hw.of_owned_ne (hv ▸ hne)
    · exact absurd (congrArg ChannelInfo.owned (ToneEngine.setCh_ch_other s.te d c v hcd)) hne
  | block hf => exact absurd (fillFrom_sameInstalled hf _ 0 s c).owned hne
  | rejected | fatal | seized | released | skipped | frame => exact absurd rfl hne

end Sys2Proof.Machine
end

section
/-! SUPPORT. What a well-formed configuration and an encoded digit string give the invariant (00_scope.md R12; 30_encoding.md R82). -/

namespace Sys2Proof.Machine

/-! ## A well-formed configuration -/

/-- The receiver's counts are at least 1 (R12 (a)). -/
theorem one_le_counts_of_wellFormed {cfg : Cfg} (h : Cfg.wellFormed cfg = true) :
    1 ≤ cfg.minKpGateBlockCount ∧ 1 ≤ cfg.minDigitBlockCount ∧ 1 ≤ cfg.mfInterdigitTimeout ∧ 1 ≤ cfg.mfMaxDigits := by
  simp only [Cfg.wellFormed, Cfg.receiverOk, Bool.and_eq_true, decide_eq_true_eq] at h
  omega

/-- Every pair of gains a channel loads is legal (R12 (c)). -/
structure GainsWellFormed (cfg : Cfg) : Prop where
  dial : gainsOk (Cfg.amp cfg.sineTable) cfg.dial.g0 cfg.dial.g1 = true
  busy : gainsOk (Cfg.amp cfg.sineTable) cfg.busy.g0 cfg.busy.g1 = true
  cong : gainsOk (Cfg.amp cfg.sineTable) cfg.cong.g0 cfg.cong.g1 = true
  ring : gainsOk (Cfg.amp cfg.sineTable) cfg.ring.g0 cfg.ring.g1 = true
  mf : gainsOk (Cfg.amp cfg.sineTable) cfg.mfGain.g0 cfg.mfGain.g1 = true
  dtmf : gainsOk (Cfg.amp cfg.sineTable) cfg.dtmfGain.g0 cfg.dtmfGain.g1 = true

theorem gainsWellFormed_of_wellFormed {cfg : Cfg} (h : Cfg.wellFormed cfg = true) : GainsWellFormed cfg := by
  simp only [Cfg.wellFormed, Cfg.tonesOk, toneOk, Bool.and_eq_true] at h
  constructor <;> simp only [h]

/-! ## An encoded digit string -/

/-- One character more of an encoded string (R82). -/
theorem encodeChars_cons {mode : DigitMode} {c : Ascii} {cs : List Ascii} {codes : List DigitCode}
    (h : encodeChars mode (c :: cs) = some codes) :
    ∃ d ds, encodeChar mode c = some d ∧ encodeChars mode cs = some ds ∧ codes = d :: ds := by
  unfold encodeChars at h
  split at h
  · next d ds hd hds => exact ⟨d, ds, hd, hds, (Option.some.inj h).symm⟩
  · cases h

theorem encodeChars_length {mode : DigitMode} {cs : List Ascii} {codes : List DigitCode}
    (h : encodeChars mode cs = some codes) : codes.length = cs.length := by
  induction cs generalizing codes with
  | nil => cases h; rfl
  | cons c cs ih =>
    obtain ⟨d, ds, -, hds, rfl⟩ := encodeChars_cons h
    simp [ih hds]

/-- `'D'` is no MF digit (R82). -/
theorem encodeChar_mf_ne {c : Ascii} {d : DigitCode} (h : encodeChar .mf c = some d) : d ≠ 0xF := by
  unfold encodeChar at h
  split at h
  · cases h
  · split at h
    · cases h
    · next hd => cases h; exact fun e => hd ⟨rfl, e⟩

theorem encodeChars_mf_ne {cs : List Ascii} {codes : List DigitCode} (h : encodeChars .mf cs = some codes) :
    ∀ d ∈ codes, d ≠ 0xF := by
  induction cs generalizing codes with
  | nil => cases h; simp
  | cons c cs ih =>
    obtain ⟨d, ds, hd, hds, rfl⟩ := encodeChars_cons h
    intro e he
    rcases List.mem_cons.1 he with rfl | he
    · exact encodeChar_mf_ne hd
    · exact ih hds e he

/-- A string that encodes fits the buffer, code by code (R82). -/
theorem digitEncode_eq_some {cfg : Cfg} {mode : DigitMode} {cs : List Ascii} {codes : List DigitCode}
    (h : digitEncode cfg mode cs = some codes) : codes.length ≤ cfg.maxDigits ∧ encodeChars mode cs = some codes := by
  unfold digitEncode at h
  split at h
  · cases h
  · exact ⟨by have := encodeChars_length h; omega, h⟩

end Sys2Proof.Machine
end

section
/-! SUPPORT. Every tick and every command keeps the invariant of a channel (10_state.md R25, R26; 41_channel_fsm.md R120 to R147;
42_tone_engine.md R171 to R178). -/

namespace Sys2Proof.Machine

/-! ## What a state demands of its channel -/

/-- The clauses of `ChanInv` that speak of the state, as one demand per state; a tone asks for an owned channel only. -/
def ChanDemands (ch : ChannelInfo) : ChState → Prop
  | .idle => True
  | .sendMf | .sendMfWaitToneEnd | .sendMfWaitSilenceEnd =>
    ch.owned = true ∧ (∀ i, i < ch.dlen → ch.digits.getD i 0 ≠ 0xF) ∧ ch.cb ≠ none
  | .sendDtmf | .sendDtmfWaitToneEnd | .sendDtmfWaitSilenceEnd => ch.owned = true ∧ ch.cb ≠ none
  | .sendAudio => ch.owned = true ∧ ch.abuf ≠ none
  | .sendAudioWait => ch.owned = true ∧ ch.abuf ≠ none ∧ ch.aidx ≤ ch.alen
  | .sendAudioLoop => ch.owned = true ∧ ch.abuf ≠ none ∧ 1 ≤ ch.alen
  | .sendAudioLoopWait => ch.owned = true ∧ ch.abuf ≠ none ∧ ch.aidx < ch.alen
  | _ => ch.owned = true

/-- The clauses of `ChanInv` that hold in every state. -/
structure ChanData (cfg : Cfg) (ch : ChannelInfo) : Prop where
  didx_le : ch.didx ≤ ch.dlen
  dlen_le : ch.dlen ≤ cfg.maxDigits
  buffer : ch.digits.length = cfg.maxDigits
  tw0 : ch.tone0.tw = tuningWord ch.tone0.freq
  tw1 : ch.tone1.tw = tuningWord ch.tone1.freq
  gains : gainsOk (Cfg.amp cfg.sineTable) ch.tone0.gain ch.tone1.gain = true

section
variable {cfg : Cfg} {ch : ChannelInfo}

theorem ChanInv.data (hi : ChanInv cfg ch) : ChanData cfg ch :=
  ⟨hi.didx_le, hi.dlen_le, hi.buffer, hi.tw0, hi.tw1, hi.gains⟩

theorem ChanInv.owned_of_ne_idle (hi : ChanInv cfg ch) (h : ch.state ≠ .idle) : ch.owned = true :=
  Bool.of_not_eq_false fun hfree => h (hi.free_idle hfree)

theorem ChanInv.demands (hi : ChanInv cfg ch) : ChanDemands ch ch.state := by
  have howned := hi.owned_of_ne_idle
  cases h : ch.state with
  | idle => trivial
  | sendMf | sendMfWaitToneEnd | sendMfWaitSilenceEnd =>
    exact ⟨howned (by simp [h]), hi.mf_codes (by simp [h]), hi.callback (by simp [h])⟩
  | sendDtmf | sendDtmfWaitToneEnd | sendDtmfWaitSilenceEnd => exact ⟨howned (by simp [h]), hi.callback (by simp [h])⟩
  | sendAudio => exact ⟨howned (by simp [h]), hi.installed (by simp [h])⟩
  | sendAudioWait => exact ⟨howned (by simp [h]), hi.installed (by simp [h]), hi.play_idx h⟩
  | sendAudioLoop => exact ⟨howned (by simp [h]), hi.installed (by simp [h]), hi.loop_len (by simp [h])⟩
  | sendAudioLoopWait => exact ⟨howned (by simp [h]), hi.installed (by simp [h]), hi.loop_idx h⟩
  | _ => exact howned (by simp [h])

theorem ChanDemands.owned {st : ChState} (h : ChanDemands ch st) (hst : st ≠ .idle) : ch.owned = true := by
  cases st with
  | idle => exact absurd rfl hst
  | sendMf | sendMfWaitToneEnd | sendMfWaitSilenceEnd | sendDtmf | sendDtmfWaitToneEnd | sendDtmfWaitSilenceEnd
  | sendAudio | sendAudioWait | sendAudioLoop | sendAudioLoopWait => exact h.1
  | _ => exact h

/-- The invariant is its data and the demand of the state held. -/
theorem ChanData.chanInv (hd : ChanData cfg ch) (h : ChanDemands ch ch.state) : ChanInv cfg ch where
  free_idle hfree := by_contra fun hst => Bool.eq_false_iff.1 hfree (h.owned hst)
  didx_le := hd.didx_le
  dlen_le := hd.dlen_le
  buffer := hd.buffer
  tw0 := hd.tw0
  tw1 := hd.tw1
  gains := hd.gains
  mf_codes := by rintro (e | e | e) <;> rw [e] at h <;> exact h.2.1
  callback := by
    rintro (e | e | e | e | e | e) <;> rw [e] at h
    exacts [h.2.2, h.2.2, h.2.2, h.2, h.2, h.2]
  installed := by
    rintro (e | e | e | e) <;> rw [e] at h
    exacts [h.2, h.2.1, h.2.1, h.2.1]
  loop_len := by
    rintro (e | e) <;> rw [e] at h
    exacts [h.2.2, Nat.one_le_of_lt h.2.2]
  play_idx e := by rw [e] at h; exact h.2.2
  loop_idx e := by rw [e] at h; exact h.2.2

/-! ## The shared operations -/

/-- A channel moves to another state, timers set, when that state's demand is met. -/
theorem ChanInv.enter (hi : ChanInv cfg ch) {st : ChState} (h : ChanDemands ch st) (timer reload : Nat) :
    ChanInv cfg { ch with state := st, timer := timer, reload := reload } :=
  ChanData.chanInv { hi.data with } h

/-- Within its state a channel may change its timers and go on with its digits. -/
theorem ChanInv.stay (hi : ChanInv cfg ch) (timer reload : Nat) {didx : Nat} (h : didx ≤ ch.dlen) :
    ChanInv cfg { ch with timer := timer, reload := reload, didx := didx } :=
  { hi with didx_le := h }

/-- A channel moves its playback index and to a state whose demand the new index meets. -/
theorem ChanInv.play (hi : ChanInv cfg ch) (st : ChState) (aidx : Nat) (h : ChanDemands { ch with aidx := aidx } st) :
    ChanInv cfg { ch with state := st, aidx := aidx } :=
  ChanData.chanInv { hi.data with } h

theorem ChanInv.pairTick (hi : ChanInv cfg ch) : ChanInv cfg (pairTick cfg ch).1 :=
  { hi with
    tw0 := by simpa using hi.tw0
    tw1 := by simpa using hi.tw1
    gains := by simpa using hi.gains }

theorem ChanInv.loadPair (hi : ChanInv cfg ch) {f0 g0 f1 g1 : Q} (hg : gainsOk (Cfg.amp cfg.sineTable) g0 g1 = true) :
    ChanInv cfg (loadPair ch f0 g0 f1 g1) :=
  { hi with tw0 := rfl, tw1 := rfl, gains := hg }

theorem ChanInv.toneEndTick (hi : ChanInv cfg ch) {next : ChState} (h : ChanDemands ch next) (timer : Nat) :
    ChanInv cfg (toneEndTick cfg ch next timer).ch := by
  rcases toneEndTick_cases cfg ch next timer with ⟨-, e⟩ | ⟨-, -, e⟩ | ⟨-, -, e⟩ <;> rw [e]
  · exact hi.pairTick.stay _ _ hi.didx_le
  · exact hi.pairTick.enter h _ _
  · exact hi.pairTick

theorem ChanInv.silenceTick (hi : ChanInv cfg ch) {f : ChannelInfo → ChannelInfo} (h : ChanInv cfg (f ch)) :
    ChanInv cfg (silenceTick ch f).ch := by
  rcases silenceTick_cases ch f with ⟨-, e⟩ | ⟨-, e⟩ <;> rw [e]
  · exact hi.stay _ _ hi.didx_le
  · exact h

theorem ChanInv.sendHead (hi : ChanInv cfg ch) (c : ChanId) {load : DigitCode → ChannelInfo → ChannelInfo}
    (h : ∀ d, ChanInv cfg { ch with didx := ch.didx + 1 } → ChanInv cfg (load d { ch with didx := ch.didx + 1 })) :
    ChanInv cfg (sendHead cfg c ch load).ch := by
  rcases sendHead_cases cfg c ch load with ⟨-, e⟩ | ⟨-, -, e⟩ | ⟨hlt, e⟩ <;> rw [e]
  · exact hi.enter (st := .idle) trivial _ _
  · exact hi.enter (st := .idle) trivial _ _
  · exact h _ (hi.stay _ _ hlt)

/-! ## A tick -/

theorem ChanInv.chTick (hg : GainsWellFormed cfg) (hi : ChanInv cfg ch) (audio : Cells 16) (c : ChanId) :
    ChanInv cfg (chTick cfg audio c ch).ch := by
  have hd := hi.demands
  unfold Machine.chTick
  cases hst : ch.state <;> rw [hst] at hd
  case idle => exact hi
  case genDialTone => exact (hi.loadPair hg.dial).enter (st := .genDialToneWait) hd _ _
  case genDialToneWait => exact hi.pairTick
  case genBusyTone => exact (hi.loadPair hg.busy).enter (st := .busyWaitToneEnd) hd _ _
  case genCongestionTone => exact (hi.loadPair hg.cong).enter (st := .busyWaitToneEnd) hd _ _
  case busyWaitToneEnd => exact hi.toneEndTick (next := .busyWaitSilenceEnd) hd _
  case busyWaitSilenceEnd =>
    refine hi.silenceTick ?_
    exact ChanInv.enter (ch := rewound ch) { hi with } (st := .busyWaitToneEnd) hd _ _
  case genRingingTone => exact (hi.loadPair hg.ring).enter (st := .ringingWaitToneEnd) hd _ _
  case ringingWaitToneEnd => exact hi.toneEndTick (next := .ringingWaitSilenceEnd) hd _
  case ringingWaitSilenceEnd => exact hi.silenceTick (hi.enter (st := .genRingingTone) hd _ _)
  case sendMf => exact hi.sendHead c fun d hn => (hn.loadPair hg.mf).enter (st := .sendMfWaitToneEnd) hd _ _
  case sendMfWaitToneEnd => exact hi.toneEndTick (next := .sendMfWaitSilenceEnd) hd _
  case sendMfWaitSilenceEnd => exact hi.silenceTick (hi.enter (st := .sendMf) hd _ _)
  case sendDtmf => exact hi.sendHead c fun d hn => (hn.loadPair hg.dtmf).enter (st := .sendDtmfWaitToneEnd) hd _ _
  case sendDtmfWaitToneEnd => exact hi.toneEndTick (next := .sendDtmfWaitSilenceEnd) hd _
  case sendDtmfWaitSilenceEnd => exact hi.silenceTick (hi.enter (st := .sendDtmf) hd _ _)
  case sendAudio =>
    obtain ⟨howned, habuf⟩ := hd
    exact hi.play .sendAudioWait 0 ⟨howned, habuf, Nat.zero_le _⟩
  case sendAudioWait =>
    obtain ⟨howned, habuf, -⟩ := hd
    dsimp only [tickSendAudioWait]
    split
    · exact hi.enter (st := .idle) trivial _ _
    · next hlt => exact hi.play ch.state _ (hst ▸ ⟨howned, habuf, Nat.lt_of_not_le hlt⟩)
  case sendAudioLoop =>
    obtain ⟨howned, habuf, hlen⟩ := hd
    exact hi.play .sendAudioLoopWait 0 ⟨howned, habuf, hlen⟩
  case sendAudioLoopWait =>
    obtain ⟨howned, habuf, hlt⟩ := hd
    have hwrap : (if ch.alen ≤ ch.aidx + 1 then 0 else ch.aidx + 1) < ch.alen := by split <;> omega
    exact hi.play ch.state _ (hst ▸ ⟨howned, habuf, hwrap⟩)

/-! ## A command -/

/-- Installing an encoded string: the codes replace as many elements of the buffer, whose length stays (R174, R175). -/
theorem ChanInv.installDigits (hi : ChanInv cfg ch) {mode : DigitMode} {cs : List Ascii} {codes : List DigitCode} {cb : Handle}
    {head : ChState} (henc : digitEncode cfg mode cs = some codes)
    (h : ChanDemands (installDigits ch codes cb head) head) : ChanInv cfg (installDigits ch codes cb head) := by
  have hlen := (digitEncode_eq_some henc).1
  refine ChanData.chanInv { hi.data with didx_le := Nat.zero_le _, dlen_le := hlen, buffer := ?_ } h
  simp only [Machine.installDigits, List.length_append, List.length_drop, hi.buffer]
  omega

theorem installDigits_getD (codes : List DigitCode) (cb : Handle) (head : ChState) {i : Nat}
    (hlt : i < (installDigits ch codes cb head).dlen) : (installDigits ch codes cb head).digits.getD i 0 ∈ codes := by
  have hi : i < codes.length := hlt
  have hget : (installDigits ch codes cb head).digits.getD i 0 = codes[i] := by
    simp [installDigits, List.getElem?_append_left hi, hi]
  rw [hget]
  exact List.getElem_mem hi

/-- The head of a call-progress tone asks for an owned channel only (R173). -/
theorem cptHead_demands {kind : BitVec 4} {head : ChState} (h : cptHead kind = some head) (howned : ch.owned = true) :
    ChanDemands ch head := by
  rcases cptHead_cases kind with ⟨-, e⟩ | ⟨-, e⟩ | ⟨-, e⟩ | ⟨-, e⟩ | ⟨-, e⟩ <;> rw [e] at h <;> cases h <;> exact howned

end

/-- Every command leaves the channel it writes with the invariant. -/
theorem ChannelWrite.chanInv {s : State} {c : ChanId} {i : Instr} {v : ChannelInfo} {r : Ret} (hw : ChannelWrite s c i v r)
    (hi : ChanInv s.cfg (s.te.ch c)) : ChanInv s.cfg v := by
  cases hw with
  | seize | release => exact ChanData.chanInv { hi.data with } trivial
  | stop => exact hi.enter (st := .idle) trivial _ _
  | cpt howned hhead => exact hi.enter (cptHead_demands hhead howned) _ _
  | sendMf howned henc =>
    refine hi.installDigits henc ⟨howned, fun k hk => ?_, nofun⟩
    exact encodeChars_mf_ne (digitEncode_eq_some henc).2 _ (installDigits_getD _ _ _ hk)
  | sendDtmf howned henc => exact hi.installDigits henc ⟨howned, nofun⟩
  | send howned => exact ChanData.chanInv { hi.data with } ⟨howned, nofun⟩
  | sendLoop howned hlen =>
    refine ChanData.chanInv { hi.data with } ⟨howned, nofun, ?_⟩
    exact Nat.one_le_iff_ne_zero.2 fun h0 => hlen (BitVec.eq_of_toNat_eq h0)

end Sys2Proof.Machine
end

section
/-! SUPPORT. The decoder keeps its invariant: every frame, a seize and a release (10_state.md R34; 44_mf_decoder.md R223 to R238;
45_mf_receiver.md R251, R253). -/

namespace Sys2Proof.Machine

/-! ## The digit buffer -/

/-- The clauses of `MfInv` that speak of the buffer and its count alone (R34, R238, D44). -/
structure DigitBuffer (cfg : Cfg) (digits : List Ascii) (n : Nat) : Prop where
  ndigits_le : n ≤ cfg.mfMaxDigits
  buffer : digits.length = cfg.mfMaxDigits + 1
  terminated : digits[n]? = some 0
  kp_first : 1 ≤ n → digits[0]? = some 0x2A
  in_range : ∀ i, 1 ≤ i → i < n → ∃ m, mfDecode cfg m = digits[i]?
  last_terminator : ∀ i, i + 1 < n → isTerminator (digits.getD i 0) = false

/-- No terminator is among the first `n` characters (R229). -/
def NoTerminator (digits : List Ascii) (n : Nat) : Prop := ∀ i, i < n → isTerminator (digits.getD i 0) = false

/-- The character KP is appended first, any later one is in `MF_DECODE`'s range (R226, R229). -/
def Appendable (cfg : Cfg) (n : Nat) (c : Ascii) : Prop := (n = 0 ∧ c = 0x2A) ∨ (1 ≤ n ∧ ∃ m, mfDecode cfg m = some c)

section
variable {cfg : Cfg} {digits : List Ascii} {n : Nat} {c : Ascii}

theorem getElem?_appended_lt {i : Nat} (h : i < n) : ((digits.set n c).set (n + 1) 0)[i]? = digits[i]? := by
  rw [List.getElem?_set_ne (by omega), List.getElem?_set_ne (by omega)]

theorem getElem?_appended_self (h : n < digits.length) : ((digits.set n c).set (n + 1) 0)[n]? = some c := by
  rw [List.getElem?_set_ne (by omega), List.getElem?_set_self h]

theorem getElem?_appended_next (h : n + 1 < digits.length) : ((digits.set n c).set (n + 1) 0)[n + 1]? = some 0 :=
  List.getElem?_set_self (by rwa [List.length_set])

theorem getD_appended_lt {i : Nat} (h : i < n) : ((digits.set n c).set (n + 1) 0).getD i 0 = digits.getD i 0 := by
  rw [List.getD_eq_getElem?_getD, getElem?_appended_lt h, List.getD_eq_getElem?_getD]

theorem DigitBuffer.append (hb : DigitBuffer cfg digits n) (hroom : n < cfg.mfMaxDigits) (hno : NoTerminator digits n)
    (hc : Appendable cfg n c) : DigitBuffer cfg ((digits.set n c).set (n + 1) 0) (n + 1) := by
  have hlen := hb.buffer
  have hself : ((digits.set n c).set (n + 1) 0)[n]? = some c := getElem?_appended_self (by omega)
  refine ⟨hroom, by simpa using hlen, getElem?_appended_next (by omega), fun _ => ?_, fun i h1 hi => ?_, fun i hi => ?_⟩
  · rcases hc with ⟨rfl, rfl⟩ | ⟨hn, -⟩
    · exact hself
    · rw [getElem?_appended_lt hn, hb.kp_first hn]
  · rcases Nat.lt_succ_iff_lt_or_eq.1 hi with hlt | rfl
    · rw [getElem?_appended_lt hlt]
      exact hb.in_range i h1 hlt
    · rcases hc with ⟨rfl, -⟩ | ⟨-, m, hm⟩
      · exact absurd h1 (by decide)
      · exact ⟨m, hm.trans hself.symm⟩
  · rw [getD_appended_lt (by omega)]
    exact hno i (by omega)

theorem NoTerminator.append (hno : NoTerminator digits n) (hlen : n < digits.length) (hc : isTerminator c = false) :
    NoTerminator ((digits.set n c).set (n + 1) 0) (n + 1) := by
  intro i hi
  rcases Nat.lt_succ_iff_lt_or_eq.1 hi with hlt | rfl
  · rw [getD_appended_lt hlt]
    exact hno i hlt
  · rw [List.getD_eq_getElem?_getD, getElem?_appended_self hlen]
    exact hc

end

section
variable {cfg : Cfg} {mf : MfData} {c : Ascii}

theorem DigitBuffer.mfAppend (hb : DigitBuffer cfg mf.digits mf.ndigits) (hno : NoTerminator mf.digits mf.ndigits)
    (hc : Appendable cfg mf.ndigits c) : DigitBuffer cfg (mfAppend cfg c mf).digits (mfAppend cfg c mf).ndigits := by
  rcases mfAppend_cases cfg c mf with ⟨hroom, e⟩ | ⟨-, e⟩ <;> rw [e]
  · exact hb.append hroom hno hc
  · exact hb

theorem NoTerminator.mfAppend (hno : NoTerminator mf.digits mf.ndigits) (hb : DigitBuffer cfg mf.digits mf.ndigits)
    (hc : isTerminator c = false) : NoTerminator (mfAppend cfg c mf).digits (mfAppend cfg c mf).ndigits := by
  rcases mfAppend_cases cfg c mf with ⟨hroom, e⟩ | ⟨-, e⟩ <;> rw [e]
  · exact hno.append (by have := hb.buffer; omega) hc
  · exact hno

/-- An append leaves the buffer not empty, even where it is dropped (R223). -/
theorem one_le_ndigits_mfAppend (h : 1 ≤ cfg.mfMaxDigits) (c : Ascii) (mf : MfData) :
    1 ≤ (mfAppend cfg c mf).ndigits := by
  rcases mfAppend_cases cfg c mf with ⟨-, e⟩ | ⟨hfull, e⟩ <;> rw [e]
  · exact Nat.le_add_left 1 _
  · exact h.trans hfull

/-! ## What a state demands of the decoder -/

/-- The receiver is seized, with a descriptor and a callback (R34, R232). -/
def Seized (mf : MfData) : Prop := mf.desc ≠ 0 ∧ mf.cb ≠ none

theorem Seized.mfAppend (hs : Seized mf) (cfg : Cfg) (c : Ascii) : Seized (mfAppend cfg c mf) := by
  rcases mfAppend_cases cfg c mf with ⟨-, e⟩ | ⟨-, e⟩ <;> rw [e] <;> exact hs

/-- KP has been accepted, no terminator yet, and the interdigit timer runs (R224, R226, R229). -/
def AfterKp (cfg : Cfg) (mf : MfData) : Prop :=
  Seized mf ∧ 1 ≤ mf.ndigits ∧ NoTerminator mf.digits mf.ndigits ∧ mf.timer < cfg.mfInterdigitTimeout

/-- The clauses of `MfInv` that speak of the state, as one demand per state. The transient states ask for what the state they
chain to does (R230). -/
def MfDemands (cfg : Cfg) (mf : MfData) : MfState → Prop
  | .idle => mf.desc = 0
  | .waitKp => Seized mf ∧ mf.ndigits = 0 ∧ mf.kpCount < cfg.minKpGateBlockCount
  | .kpSilence => AfterKp cfg mf
  | .waitDigit => AfterKp cfg mf ∧ mf.digCount < cfg.minDigitBlockCount
  | .waitDigitSilence => AfterKp cfg mf ∧ ∃ m c, mf.pend = some c ∧ mfDecode cfg m = some c
  | .timeout | .done | .waitRelease => Seized mf ∧ 1 ≤ mf.ndigits

/-- The invariant of the decoder within a frame, where the state may be transient. -/
structure DecoderOk (cfg : Cfg) (mf : MfData) : Prop where
  buffer : DigitBuffer cfg mf.digits mf.ndigits
  demands : MfDemands cfg mf mf.state

theorem MfInv.seized (hi : MfInv cfg mf) (h : mf.state ≠ .idle) : Seized mf := ⟨hi.desc_iff.2 h, hi.callback h⟩

theorem MfInv.afterKp (hi : MfInv cfg mf) (h : mf.state = .kpSilence ∨ mf.state = .waitDigit ∨ mf.state = .waitDigitSilence) :
    AfterKp cfg mf :=
  ⟨hi.seized (by rcases h with e | e | e <;> simp [e]), hi.nonempty_after_kp (by tauto), hi.no_terminator (.inr h),
    hi.timer_lt h⟩

theorem MfInv.decoderOk (hi : MfInv cfg mf) : DecoderOk cfg mf where
  buffer := ⟨hi.ndigits_le, hi.buffer, hi.terminated, hi.kp_first, hi.in_range, hi.last_terminator⟩
  demands := by
    cases h : mf.state with
    | idle => exact by_contra fun hd => hi.desc_iff.1 hd h
    | waitKp => exact ⟨hi.seized (by simp [h]), hi.empty_before_kp h, hi.kp_lt h⟩
    | kpSilence => exact hi.afterKp (by simp [h])
    | waitDigit => exact ⟨hi.afterKp (by simp [h]), hi.dig_lt h⟩
    | waitDigitSilence => exact ⟨hi.afterKp (by simp [h]), hi.pending h⟩
    | timeout => exact absurd h hi.settled.1
    | done => exact absurd h hi.settled.2
    | waitRelease => exact ⟨hi.seized (by simp [h]), hi.nonempty_after_kp (by simp [h])⟩

theorem DecoderOk.seized (hok : DecoderOk cfg mf) (h : mf.state ≠ .idle) : Seized mf := by
  have hd := hok.demands
  cases hst : mf.state <;> rw [hst] at hd
  case idle => exact absurd hst h
  case waitDigit | waitDigitSilence => exact hd.1.1
  case waitKp | kpSilence | timeout | done | waitRelease => exact hd.1

theorem DecoderOk.afterKp (hok : DecoderOk cfg mf)
    (h : mf.state = .kpSilence ∨ mf.state = .waitDigit ∨ mf.state = .waitDigitSilence) : AfterKp cfg mf := by
  have hd := hok.demands
  rcases h with e | e | e <;> rw [e] at hd
  exacts [hd, hd.1, hd.1]

/-- A settled decoder's invariant is its buffer and the demand of the state held. -/
theorem DecoderOk.mfInv (hok : DecoderOk cfg mf) (hset : settled mf) : MfInv cfg mf where
  desc_iff := by
    refine ⟨fun hdesc hidle => hdesc ?_, fun h => (hok.seized h).1⟩
    have hd := hok.demands
    rwa [hidle] at hd
  settled := hset
  ndigits_le := hok.buffer.ndigits_le
  buffer := hok.buffer.buffer
  terminated := hok.buffer.terminated
  empty_before_kp h := by
    have hd := hok.demands
    rw [h] at hd
    exact hd.2.1
  nonempty_after_kp h := by
    by_cases hrelease : mf.state = .waitRelease
    · have hd := hok.demands
      rw [hrelease] at hd
      exact hd.2
    · obtain ⟨-, hne, -⟩ := hok.afterKp (by tauto)
      exact hne
  kp_first := hok.buffer.kp_first
  in_range := hok.buffer.in_range
  last_terminator := hok.buffer.last_terminator
  no_terminator h := by
    rcases h with h | h
    · have hd := hok.demands
      rw [h] at hd
      exact fun i hi => absurd hi (by simp [hd.2.1])
    · obtain ⟨-, -, hno, -⟩ := hok.afterKp h
      exact hno
  pending h := by
    have hd := hok.demands
    rw [h] at hd
    exact hd.2
  timer_lt h := by
    obtain ⟨-, -, -, hlt⟩ := hok.afterKp h
    exact hlt
  kp_lt h := by
    have hd := hok.demands
    rw [h] at hd
    exact hd.2.2
  dig_lt h := by
    have hd := hok.demands
    rw [h] at hd
    exact hd.2
  callback h := (hok.seized h).2

/-! ## One frame -/

/-- One frame of the interdigit timer: it runs out, or its state's demand is met with the timer one further (R224). -/
theorem DecoderOk.runTimer (hb : DigitBuffer cfg mf.digits mf.ndigits) (hk : AfterKp cfg mf)
    (hstay : AfterKp cfg { mf with timer := mf.timer + 1 } → MfDemands cfg { mf with timer := mf.timer + 1 } mf.state) :
    DecoderOk cfg (runTimer cfg mf) := by
  obtain ⟨hs, hne, hno, -⟩ := hk
  rcases runTimer_cases cfg mf with ⟨-, e⟩ | ⟨hlt, e⟩ <;> rw [e]
  · exact ⟨hb, hs, hne⟩
  · exact ⟨hb, hstay ⟨hs, hne, hno, hlt⟩⟩

theorem DecoderOk.mfdWaitKp (hw : Cfg.wellFormed cfg = true) (cls : FrameClass) (hok : DecoderOk cfg mf)
    (hst : mf.state = .waitKp) : DecoderOk cfg (mfdWaitKp cfg cls mf) := by
  obtain ⟨hkp, -, htimeout, hmax⟩ := one_le_counts_of_wellFormed hw
  obtain ⟨hb, hd⟩ := hok
  rw [hst] at hd
  obtain ⟨hs, hempty, hcount⟩ := hd
  have hno : NoTerminator mf.digits mf.ndigits := fun i hi => absurd hi (by simp [hempty])
  have hstay (k : Nat) (hk : k < cfg.minKpGateBlockCount) : DecoderOk cfg { mf with kpCount := k } :=
    ⟨hb, by rw [hst]; exact ⟨hs, hempty, hk⟩⟩
  unfold Machine.mfdWaitKp
  split
  · split
    · exact ⟨hb.mfAppend hno (.inl ⟨hempty, rfl⟩), hs.mfAppend cfg 0x2A, one_le_ndigits_mfAppend hmax 0x2A mf,
        hno.mfAppend hb (by decide), htimeout⟩
    · next hlt => exact hstay _ (Nat.lt_of_not_le hlt)
  · exact hstay 0 hkp

theorem DecoderOk.mfdKpSilence (hw : Cfg.wellFormed cfg = true) (cls : FrameClass) (hok : DecoderOk cfg mf)
    (hst : mf.state = .kpSilence) : DecoderOk cfg (mfdKpSilence cfg cls mf) := by
  obtain ⟨-, hdig, htimeout, -⟩ := one_le_counts_of_wellFormed hw
  have hb := hok.buffer
  have hk := hok.afterKp (.inl hst)
  have hrun : DecoderOk cfg (Machine.runTimer cfg mf) := .runTimer hb hk fun hk' => by
    rw [hst]
    exact hk'
  obtain ⟨hs, hne, hno, -⟩ := hk
  cases cls with
  | silence => exact ⟨hb, ⟨hs, hne, hno, htimeout⟩, hdig⟩
  | valid m => exact hrun
  | invalid => exact hrun

/-- The debounce writes the candidate and its count only (R228). -/
theorem debounce_eq (m : Mask) (mf : MfData) : ∃ cand count, debounce m mf = { mf with cand := cand, digCount := count } := by
  unfold debounce
  split
  · exact ⟨m, 1, rfl⟩
  · exact ⟨mf.cand, mf.digCount + 1, rfl⟩

theorem DecoderOk.mfdWaitDigit (hw : Cfg.wellFormed cfg = true) (cls : FrameClass) (hok : DecoderOk cfg mf)
    (hst : mf.state = .waitDigit) : DecoderOk cfg (mfdWaitDigit cfg cls mf) := by
  obtain ⟨-, hdig, htimeout, -⟩ := one_le_counts_of_wellFormed hw
  have hb := hok.buffer
  have hk := hok.afterKp (.inr (.inl hst))
  have hsilent : DecoderOk cfg (Machine.runTimer cfg { mf with digCount := 0 }) :=
    .runTimer (mf := { mf with digCount := 0 }) hb hk fun hk' => by
      rw [show MfData.state { mf with digCount := 0 } = _ from hst]
      exact ⟨hk', hdig⟩
  have hstay (cand : Mask) (count : Nat) (hcount : count < cfg.minDigitBlockCount) :
      DecoderOk cfg { mf with cand := cand, digCount := count } :=
    ⟨hb, by rw [hst]; exact ⟨hk, hcount⟩⟩
  cases cls with
  | silence => exact hsilent
  | invalid => exact hsilent
  | valid m =>
    obtain ⟨cand, count, e⟩ := debounce_eq m mf
    dsimp only [Machine.mfdWaitDigit]
    rw [e]
    split
    · split
      · next c hc =>
        obtain ⟨hs, hne, hno, -⟩ := hk
        exact ⟨hb, ⟨hs, hne, hno, htimeout⟩, m, c, rfl, hc⟩
      · exact hstay cand 0 hdig
    · next hlt => exact hstay cand count (Nat.lt_of_not_le hlt)

theorem DecoderOk.mfdWaitDigitSilence (hw : Cfg.wellFormed cfg = true) (cls : FrameClass) (hok : DecoderOk cfg mf)
    (hst : mf.state = .waitDigitSilence) : DecoderOk cfg (mfdWaitDigitSilence cfg cls mf) := by
  obtain ⟨-, hdig, htimeout, hmax⟩ := one_le_counts_of_wellFormed hw
  obtain ⟨hb, hd⟩ := hok
  rw [hst] at hd
  obtain ⟨hk, m, c, hpend, hdec⟩ := hd
  have hrun : DecoderOk cfg (Machine.runTimer cfg mf) :=
    .runTimer hb hk fun hk' => by
      rw [hst]
      exact ⟨hk', m, c, hpend, hdec⟩
  cases cls with
  | valid _ => exact hrun
  | invalid => exact hrun
  | silence =>
    have hc : pending mf = c := by simp [Machine.pending, hpend]
    obtain ⟨hs, hne, hno, -⟩ := hk
    have hbuf := hb.mfAppend hno (.inr ⟨hne, m, hdec⟩)
    have hs' := hs.mfAppend cfg c
    have hne' := one_le_ndigits_mfAppend hmax c mf
    dsimp only [Machine.mfdWaitDigitSilence]
    rw [hc]
    split
    · exact ⟨hbuf, hs', hne'⟩
    · next hterm => exact ⟨hbuf, ⟨hs', hne', hno.mfAppend hb (Bool.eq_false_iff.2 hterm), htimeout⟩, hdig⟩

theorem DecoderOk.mfdState (hw : Cfg.wellFormed cfg = true) (cls : FrameClass) (hok : DecoderOk cfg mf) :
    DecoderOk cfg (mfdState cfg cls mf) := by
  unfold Machine.mfdState
  cases hst : mf.state with
  | waitKp => exact hok.mfdWaitKp hw cls hst
  | kpSilence => exact hok.mfdKpSilence hw cls hst
  | waitDigit => exact hok.mfdWaitDigit hw cls hst
  | waitDigitSilence => exact hok.mfdWaitDigitSilence hw cls hst
  | idle | timeout | done | waitRelease => exact hok

/-- A frame chains every transient state to `WaitRelease`, so it ends settled (R230). -/
theorem MfInv.mfdStep (hw : Cfg.wellFormed cfg = true) (cls : FrameClass) (hi : MfInv cfg mf) :
    MfInv cfg (mfdStep cfg cls mf).1 := by
  obtain ⟨hb, hd⟩ := hi.decoderOk.mfdState hw cls
  unfold Machine.mfdStep
  rcases mfdChain_cases (Machine.mfdState cfg cls mf) with ⟨hst, e⟩ | ⟨hst, e⟩ | ⟨hto, hdo, e⟩ <;> rw [e]
  · rw [hst] at hd
    exact DecoderOk.mfInv ⟨hb, hd⟩ ⟨nofun, nofun⟩
  · rw [hst] at hd
    exact DecoderOk.mfInv ⟨hb, hd⟩ ⟨nofun, nofun⟩
  · exact DecoderOk.mfInv ⟨hb, hd⟩ ⟨hto, hdo⟩

/-- No frame ends in `Idle` but one that began there. -/
theorem mfdStep_ne_idle (cfg : Cfg) (cls : FrameClass) (h : mf.state ≠ .idle) : (mfdStep cfg cls mf).1.state ≠ .idle := by
  rcases mfdStep_state cfg cls mf with e | hadv | e
  · rwa [e]
  · exact hadv.ne_idle
  · rw [e]
    decide

/-! ## Seize and release -/

theorem MfInv.seizedMf (hw : Cfg.wellFormed cfg = true) (hi : MfInv cfg mf) (cb : Handle) {d : Word32} (hd : d ≠ 0) :
    MfInv cfg (seizedMf mf cb d) := by
  have hlen := hi.buffer
  refine DecoderOk.mfInv ⟨⟨Nat.zero_le _, ?_, ?_, nofun, nofun, nofun⟩, ⟨hd, nofun⟩, rfl, ?_⟩ ⟨nofun, nofun⟩
  · rw [seizedMf_digits, List.length_set, hlen]
  · exact List.getElem?_set_self (by omega)
  · exact (one_le_counts_of_wellFormed hw).1

theorem MfInv.releasedMf (hi : MfInv cfg mf) : MfInv cfg (releasedMf mf) :=
  DecoderOk.mfInv ⟨hi.decoderOk.buffer, rfl⟩ ⟨nofun, nofun⟩

end

end Sys2Proof.Machine
end

section
/-! SUPPORT. Every step of the machine keeps its invariant (00_scope.md R12; 10_state.md R25, R34, R36; 44_mf_decoder.md R230, R238). -/

namespace Sys2Proof.Machine

/-! ## The invariant and the state's operations -/

/-- The invariant speaks of the configuration, the engines and the environment's spaces only. -/
theorem State.Inv.of_eq {s t : State} (hs : s.Inv) (hcfg : t.cfg = s.cfg) (hte : t.te = s.te) (hmr : t.mr = s.mr)
    (hmem : t.memWf = true) : t.Inv := by
  obtain ⟨hw, hleft, hright, hmf, hsampling, hcoeffs, hframe, -⟩ := hs
  exact ⟨by rwa [hcfg], by rwa [hcfg, hte], by rwa [hcfg, hte], by rwa [hcfg, hmr], by rwa [hmr], by rwa [hcfg, hmr],
    by rwa [hmr], hmem⟩

theorem State.Inv.chan {s : State} (hs : s.Inv) (c : ChanId) : ChanInv s.cfg (s.te.ch c) := by
  cases c with
  | left => exact hs.left
  | right => exact hs.right

theorem State.Inv.setCh {s : State} (hs : s.Inv) (c : ChanId) {v : ChannelInfo} (hv : ChanInv s.cfg v) : (s.setCh c v).Inv := by
  have hmem := State.memWf_setCh s c v hs.mem
  cases c with
  | left => exact { hs with left := hv, mem := hmem }
  | right => exact { hs with right := hv, mem := hmem }

theorem State.Inv.writeOut {s : State} (hs : s.Inv) (h : Half) (p : Nat) (v : Sample) : (s.writeOut h p v).Inv :=
  { hs with mem := State.memWf_writeOut s h p v hs.mem }

theorem State.Inv.respond {s : State} (hs : s.Inv) (v : Ret) : (s.respond v).Inv := hs.of_eq rfl rfl rfl hs.mem

theorem State.Inv.emitAll {s : State} (hs : s.Inv) (es : List Event) : (s.emitAll es).Inv := hs.of_eq rfl rfl rfl hs.mem

/-- The receiver is written with its sampling flag set exactly while the new decoder record is seized (R36). -/
theorem State.Inv.setMf {s : State} (hs : s.Inv) (b : Bool) {mf : MfData} (hmf : MfInv s.cfg mf)
    (hsampling : b = true ↔ mf.state ≠ .idle) : ((s.setSampling b).setMf mf).Inv :=
  { hs with mf := hmf, sampling := hsampling }

theorem State.Inv.tickPosition {s : State} (hs : s.Inv) (h : Half) (p : Nat) : (tickPosition h p s).Inv := by
  have hch := (hs.chan (ownerOf p)).chTick (gainsWellFormed_of_wellFormed hs.cfg) s.env.audio (ownerOf p)
  exact ((hs.setCh (ownerOf p) hch).emitAll _).writeOut h p _

/-- The filter bank keeps the coefficients (R31). -/
theorem gzFrame_coeffs (cfg : Cfg) (raw : List Nat) (r : Receiver) :
    (gzFrame cfg raw r).gz.map (fun g => g.coeff) = r.gz.map (fun g => g.coeff) := rfl

theorem gzFrame_frame_length (cfg : Cfg) (raw : List Nat) (r : Receiver) : (gzFrame cfg raw r).frame.length = raw.length :=
  correctedFrame_length cfg raw

theorem State.Inv.processFrame {s : State} (hs : s.Inv) (h : Half) (hne : s.mr.mf.state ≠ .idle) :
    (processFrame s (rawFrame s h)).Inv := by
  dsimp only [Machine.processFrame]
  refine State.Inv.emitAll ?_ _
  exact
    { hs with
      mf := hs.mf.mfdStep hs.cfg _
      sampling := ⟨fun _ => mfdStep_ne_idle _ _ hne, fun _ => hs.sampling.2 hne⟩
      coeffs := (gzFrame_coeffs s.cfg _ s.mr).trans hs.coeffs
      frame := (gzFrame_frame_length s.cfg _ s.mr).trans (rawFrame_length s h) }

/-! ## Instructions and steps -/

theorem State.Inv.exec {s t : State} {i : Instr} (hs : s.Inv) (h : exec i s = .next t) : t.Inv := by
  cases exec_completes h with
  | rejected | fatal | skipped => exact hs.of_eq rfl rfl rfl hs.mem
  | channel hw => exact (hs.setCh _ (hw.chanInv (hs.chan _))).respond _
  | block half => exact (fillFrom_induction (P := State.Inv) (fun p _ hs => hs.tickPosition half p) _ 0 s hs).respond _
  | seized cb =>
    have hdrawn : State.Inv { s with draws := s.draws + 1 } := hs.of_eq rfl rfl rfl hs.mem
    exact (hdrawn.setMf true (hs.mf.seizedMf hs.cfg cb (drawDescriptor_ne_zero _)) (by simp)).respond _
  | released => exact (hs.setMf false hs.mf.releasedMf (by simp)).respond _
  | frame half hne => exact (hs.processFrame half hne).respond _

/-- Settles O53: a step waits, executes an instruction, or writes one of the environment's spaces. -/
theorem stepKeepsTheInvariant : Obligations.StepKeepsTheInvariant := by
  intro s t hs h
  rcases step_next h with rfl | ⟨i, r, rest, hexec⟩ | henv
  · exact hs
  · exact State.Inv.exec (s := s.accept r rest) (hs.of_eq rfl rfl rfl hs.mem) hexec
  · cases henv with
    | adcFill half samples rest => exact hs.of_eq rfl rfl rfl (memWf_adcFill _ half samples hs.mem)
    | audioWrite handle i v rest => exact hs.of_eq rfl rfl rfl (memWf_audioWrite _ handle i v hs.mem)
    | strWrite handle i c rest => exact hs.of_eq rfl rfl rfl (memWf_strWrite _ handle i c hs.mem)
    | driver start stop rest => exact hs.of_eq rfl rfl rfl hs.mem

end Sys2Proof.Machine
end

section
/-! SUPPORT. A string is read as its characters before the first NUL (20_memory.md R65): only as many characters as elements are
listed can be nonzero, so the bound that `readStr` looks at is never what ends the reading. -/

namespace Sys2Proof.Machine

/-! ## Elements that do not read 0 are listed -/

theorem Cells.mem_keys_of_read_ne {w : Nat} {m : Cells w} {a : Nat} (h : Cells.read m a ≠ 0) : a ∈ m.map Prod.fst := by
  induction m with
  | nil => exact absurd rfl h
  | cons e rest ih =>
    obtain ⟨b, v⟩ := e
    by_cases hb : b = a
    · exact hb ▸ List.mem_cons_self
    · rw [Cells.read, if_neg hb] at h
      exact List.mem_cons_of_mem b (ih h)

theorem handleIndex_injective (h : Handle) : Function.Injective (handleIndex h) := fun _ _ he => Nat.add_left_cancel he

/-- The characters of a run without a NUL lie at distinct listed elements, so the run is no longer than the list. -/
theorem length_run_le {str : Cells 8} {h : Handle} {n : Nat} (hrun : ∀ k, k < n → Cells.read str (handleIndex h k) ≠ 0) :
    n ≤ str.length := by
  have hnodup : ((List.range n).map (handleIndex h)).Nodup := List.nodup_range.map (handleIndex_injective h)
  have hlisted : (List.range n).map (handleIndex h) ⊆ str.map Prod.fst := by
    intro a ha
    obtain ⟨k, hk, rfl⟩ := List.mem_map.1 ha
    exact Cells.mem_keys_of_read_ne (hrun k (List.mem_range.1 hk))
  simpa using (hnodup.subperm hlisted).length_le

/-! ## What is read -/

section
variable (str : Cells 8) (h : Handle)

theorem readChars_succ_of_nul {fuel i : Nat} (hc : Cells.read str (handleIndex h i) = 0) :
    readChars str h (fuel + 1) i = [] := if_pos hc

theorem readChars_succ_of_ne {fuel i : Nat} (hc : Cells.read str (handleIndex h i) ≠ 0) :
    readChars str h (fuel + 1) i = Cells.read str (handleIndex h i) :: readChars str h fuel (i + 1) := if_neg hc

/-- From index `i` on, every character read is the element at its place, and it is no NUL. -/
theorem readChars_getElem? (fuel i : Nat) {k : Nat} (hk : k < (readChars str h fuel i).length) :
    (readChars str h fuel i)[k]? = some (Cells.read str (handleIndex h (i + k))) ∧
      Cells.read str (handleIndex h (i + k)) ≠ 0 := by
  induction fuel generalizing i k with
  | zero => cases hk
  | succ fuel ih =>
    by_cases hc : Cells.read str (handleIndex h i) = 0
    · rw [readChars_succ_of_nul str h hc] at hk
      cases hk
    · rw [readChars_succ_of_ne str h hc] at hk ⊢
      cases k with
      | zero => exact ⟨rfl, hc⟩
      | succ k =>
        rw [List.getElem?_cons_succ, Nat.add_comm k 1, ← Nat.add_assoc]
        exact ih (i + 1) (Nat.lt_of_succ_lt_succ hk)

/-- Reading ends at a NUL, or because as many characters as allowed were read. -/
theorem readChars_ends (fuel i : Nat) :
    Cells.read str (handleIndex h (i + (readChars str h fuel i).length)) = 0 ∨ (readChars str h fuel i).length = fuel := by
  induction fuel generalizing i with
  | zero => exact .inr rfl
  | succ fuel ih =>
    by_cases hc : Cells.read str (handleIndex h i) = 0
    · rw [readChars_succ_of_nul str h hc]
      exact .inl hc
    · rw [readChars_succ_of_ne str h hc, List.length_cons, Nat.add_comm _ 1, ← Nat.add_assoc, Nat.add_comm 1, Nat.succ_inj]
      exact ih (i + 1)

theorem readStr_getElem? {k : Nat} (hk : k < (readStr str h).length) :
    (readStr str h)[k]? = some (Cells.read str (handleIndex h k)) ∧ Cells.read str (handleIndex h k) ≠ 0 := by
  simpa [readStr] using readChars_getElem? str h str.length 0 hk

/-- Were the element behind the string no NUL either, a run longer than the list would hold none. -/
theorem read_behind_readStr : Cells.read str (handleIndex h (readStr str h).length) = 0 := by
  rcases readChars_ends str h str.length 0 with hend | hfull
  · simpa [readStr] using hend
  · by_contra hne
    have hrun : ∀ k, k < (readStr str h).length + 1 → Cells.read str (handleIndex h k) ≠ 0 := by
      intro k hk
      rcases Nat.lt_succ_iff_lt_or_eq.1 hk with hlt | rfl
      · exact (readStr_getElem? str h hlt).2
      · exact hne
    have hle := length_run_le hrun
    rw [readStr, hfull] at hle
    exact Nat.not_succ_le_self _ hle

end

/-- Settles O18. -/
theorem stringsAreReadUpToTheFirstNul : Obligations.StringsAreReadUpToTheFirstNul :=
  fun str h => ⟨fun _ hk => readStr_getElem? str h hk, read_behind_readStr str h⟩

end Sys2Proof.Machine
end

section
/-! SUPPORT. Steps of the two engines commute (20_memory.md R71; 00_scope.md R3): what an instruction of one engine does depends on
the part of the machine its engine looks at only, and an instruction of the other engine leaves that part as it is. -/

namespace Sys2Proof.Machine

/-! ## The part of the machine an engine looks at -/

/-- `r` with the part the tone engine looks at taken from `s`. -/
def State.toneOver (s r : State) : State := { r with cfg := s.cfg, te := s.te, env := s.env, ctx := s.ctx }

/-- `r` with the part the receiver looks at, and the fatal flag it may set, taken from `s`. -/
def State.receiverOver (s r : State) : State :=
  { r with cfg := s.cfg, mr := s.mr, env := s.env, ctx := s.ctx, draws := s.draws, fatal := s.fatal }

theorem State.toneOver_self (s : State) : s.toneOver s = s := rfl

theorem State.toneOver_eq {s r : State} (hcfg : r.cfg = s.cfg) (hte : r.te = s.te) (henv : r.env = s.env)
    (hctx : r.ctx = s.ctx) : s.toneOver r = r := by
  rw [State.toneOver, ← hcfg, ← hte, ← henv, ← hctx]

theorem State.receiverOver_eq {s r : State} (hcfg : r.cfg = s.cfg) (hmr : r.mr = s.mr) (henv : r.env = s.env)
    (hctx : r.ctx = s.ctx) (hdraws : r.draws = s.draws) (hfatal : r.fatal = s.fatal) : s.receiverOver r = r := by
  rw [State.receiverOver, ← hcfg, ← hmr, ← henv, ← hctx, ← hdraws, ← hfatal]

/-- `t'` has the tone engine of `t`, and of `r` what a tone-engine instruction keeps beside the receiver. -/
structure ToneAlike (r t t' : State) : Prop where
  te : t'.te = t.te
  draws : t'.draws = r.draws
  fatal : t'.fatal = r.fatal

/-- `t'` has the receiver and the fatal flag of `t`. -/
structure ReceiverAlike (t t' : State) : Prop where
  mr : t'.mr = t.mr
  fatal : t'.fatal = t.fatal

/-! ## Two outcomes that agree but for their next states -/

/-- The same fault or refusal, or two next states related by `R`. -/
inductive SameOutcome (R : State → State → Prop) :
    Host.Outcome State Fault Refusal → Host.Outcome State Fault Refusal → Prop
  | next {t t' : State} : R t t' → SameOutcome R (.next t) (.next t')
  | fault (r : Fault) : SameOutcome R (.fault r) (.fault r)
  | refused (r : Refusal) : SameOutcome R (.refused r) (.refused r)

section
variable {R : State → State → Prop} {s s' t : State} {k k' l l' : Host.Outcome State Fault Refusal}

theorem SameOutcome.of_next (h : SameOutcome R (.next t) k') : ∃ t', k' = .next t' ∧ R t t' := by
  cases h with
  | next hR => exact ⟨_, rfl, hR⟩

theorem SameOutcome.ite {p : Prop} [Decidable p] (hk : SameOutcome R k k') (hl : SameOutcome R l l') :
    SameOutcome R (if p then k else l) (if p then k' else l') := by
  split
  · exact hk
  · exact hl

theorem SameOutcome.toneCommand (hctx : s'.ctx = s.ctx) (hk : SameOutcome R k k') :
    SameOutcome R (toneCommand s k) (toneCommand s' k') := by
  unfold Machine.toneCommand
  rw [hctx]
  cases s.ctx with
  | task => exact hk
  | mfCallback => exact hk
  | _ => exact .refused _

theorem SameOutcome.receiverCommand (hctx : s'.ctx = s.ctx) (hk : SameOutcome R k k') :
    SameOutcome R (receiverCommand s k) (receiverCommand s' k') := by
  unfold Machine.receiverCommand
  rw [hctx]
  cases s.ctx with
  | task => exact hk
  | mfCallback => exact .fault _
  | _ => exact .refused _

theorem SameOutcome.hardwareEvent {c : Ctx} (hctx : s'.ctx = s.ctx) (hk : SameOutcome R k k') :
    SameOutcome R (hardwareEvent c s k) (hardwareEvent c s' k') := by
  unfold Machine.hardwareEvent
  rw [hctx]
  exact hk.ite (.refused _)

end

theorem SameOutcome.withHalf {R : State → State → Prop} {h : BitVec 4} {k k' : Half → Host.Outcome State Fault Refusal}
    (hk : ∀ half, SameOutcome R (k half) (k' half)) : SameOutcome R (withHalf h k) (withHalf h k') := by
  unfold Machine.withHalf
  cases halfOf h with
  | some half => exact hk half
  | none => exact .refused _

/-! ## Tone-engine instructions -/

section
variable (s r : State)

theorem withChannel_toneOver {id : BitVec 4} {k k' : ChanId → Host.Outcome State Fault Refusal}
    (hk : ∀ c, SameOutcome (ToneAlike r) (k c) (k' c)) :
    SameOutcome (ToneAlike r) (withChannel s id k) (withChannel (s.toneOver r) id k') := by
  have hid : validId (s.toneOver r) id = validId s id := rfl
  unfold withChannel
  rw [hid]
  cases validId s id with
  | some c => exact hk c
  | none => exact .next ⟨rfl, rfl, rfl⟩

theorem execTsSeize_toneOver : SameOutcome (ToneAlike r) (execTsSeize s) (execTsSeize (s.toneOver r)) :=
  .toneCommand rfl (.ite (.next ⟨rfl, rfl, rfl⟩) (.ite (.next ⟨rfl, rfl, rfl⟩) (.next ⟨rfl, rfl, rfl⟩)))

theorem execTsRelease_toneOver (id : BitVec 4) :
    SameOutcome (ToneAlike r) (execTsRelease id s) (execTsRelease id (s.toneOver r)) :=
  .toneCommand rfl (withChannel_toneOver s r fun _ => .next ⟨rfl, rfl, rfl⟩)

theorem execTsCpt_toneOver (id kind : BitVec 4) :
    SameOutcome (ToneAlike r) (execTsCpt id kind s) (execTsCpt id kind (s.toneOver r)) :=
  .toneCommand rfl (withChannel_toneOver s r fun _ => by cases cptHead kind <;> exact .next ⟨rfl, rfl, rfl⟩)

theorem sendDigits_toneOver (mode : DigitMode) (head : ChState) (id : BitVec 4) (str cb : Word32) :
    SameOutcome (ToneAlike r) (sendDigits mode head id str cb s) (sendDigits mode head id str cb (s.toneOver r)) := by
  refine .toneCommand rfl (withChannel_toneOver s r fun c => ?_)
  have hcodes (strH : Handle) : digitEncode (s.toneOver r).cfg mode (readStr (s.toneOver r).env.str strH) =
      digitEncode s.cfg mode (readStr s.env.str strH) := rfl
  cases handleOf str with
  | none => exact .next ⟨rfl, rfl, rfl⟩
  | some strH =>
    cases handleOf cb with
    | none => exact .next ⟨rfl, rfl, rfl⟩
    | some cbH =>
      dsimp only
      rw [hcodes]
      cases digitEncode s.cfg mode (readStr s.env.str strH) <;> exact .next ⟨rfl, rfl, rfl⟩

theorem execTsSend_toneOver (id : BitVec 4) (buf len cb : Word32) :
    SameOutcome (ToneAlike r) (execTsSend id buf len cb s) (execTsSend id buf len cb (s.toneOver r)) :=
  .toneCommand rfl (withChannel_toneOver s r fun _ => by cases handleOf buf <;> exact .next ⟨rfl, rfl, rfl⟩)

theorem execTsSendLoop_toneOver (id : BitVec 4) (buf len : Word32) :
    SameOutcome (ToneAlike r) (execTsSendLoop id buf len s) (execTsSendLoop id buf len (s.toneOver r)) := by
  refine .toneCommand rfl (withChannel_toneOver s r fun c => ?_)
  cases handleOf buf with
  | none => exact .next ⟨rfl, rfl, rfl⟩
  | some bufH => exact .ite (.next ⟨rfl, rfl, rfl⟩) (.next ⟨rfl, rfl, rfl⟩)

theorem execTsStop_toneOver (id : BitVec 4) :
    SameOutcome (ToneAlike r) (execTsStop id s) (execTsStop id (s.toneOver r)) :=
  .toneCommand rfl (withChannel_toneOver s r fun _ => .next ⟨rfl, rfl, rfl⟩)

/-- A position ticks alike in both machines; its events go to each machine's own log. -/
theorem tickPosition_toneOver (h : Half) (p : Nat) :
    tickPosition h p (s.toneOver r) = (tickPosition h p s).toneOver
      (r.emitAll (chTick s.cfg s.env.audio (ownerOf p) (s.te.ch (ownerOf p))).events) := rfl

theorem fillFrom_toneOver (h : Half) (n p : Nat) :
    ToneAlike r (fillFrom h n p s) (fillFrom h n p (s.toneOver r)) := by
  induction n generalizing p s r with
  | zero => exact ⟨rfl, rfl, rfl⟩
  | succ n ih =>
    rw [fillFrom, fillFrom, tickPosition_toneOver]
    obtain ⟨hte, hdraws, hfatal⟩ := ih (tickPosition h p s) (r.emitAll _) (p + 1)
    exact ⟨hte, hdraws, hfatal⟩

theorem execTsRequestBlock_toneOver (half : BitVec 4) :
    SameOutcome (ToneAlike r) (execTsRequestBlock half s) (execTsRequestBlock half (s.toneOver r)) := by
  refine .hardwareEvent rfl (.withHalf fun h => .next ?_)
  obtain ⟨hte, hdraws, hfatal⟩ := fillFrom_toneOver s r h (2 * s.cfg.blockFrames) 0
  exact ⟨hte, hdraws, hfatal⟩

/-- Where a tone-engine instruction completes, it completes on every machine that agrees on the tone engine's part, with the same
tone engine; the descriptor count and the fatal flag stay that machine's. -/
theorem exec_toneOver {i : Instr} (hi : isTone i = true) :
    SameOutcome (ToneAlike r) (exec i s) (exec i (s.toneOver r)) := by
  cases i with
  | tsSeize => exact execTsSeize_toneOver s r
  | tsRelease id => exact execTsRelease_toneOver s r id
  | tsCpt id kind => exact execTsCpt_toneOver s r id kind
  | tsSendMf id str cb => exact sendDigits_toneOver s r .mf .sendMf id str cb
  | tsSendDtmf id str cb => exact sendDigits_toneOver s r .dtmf .sendDtmf id str cb
  | tsSend id buf len cb => exact execTsSend_toneOver s r id buf len cb
  | tsSendLoop id buf len => exact execTsSendLoop_toneOver s r id buf len
  | tsStop id => exact execTsStop_toneOver s r id
  | tsRequestBlock half => exact execTsRequestBlock_toneOver s r half
  | _ => cases hi

end

/-! ## Receiver instructions -/

section
variable (s r : State)

theorem execMfSeize_receiverOver (cb : Word32) :
    SameOutcome ReceiverAlike (execMfSeize cb s) (execMfSeize cb (s.receiverOver r)) := by
  have hstart : (s.receiverOver r).env.drvStart = s.env.drvStart := rfl
  refine .receiverCommand rfl (.ite (.next ⟨rfl, rfl⟩) ?_)
  cases handleOf cb with
  | none => exact .next ⟨rfl, rfl⟩
  | some cbH =>
    dsimp only
    rw [hstart]
    cases s.env.drvStart <;> exact .next ⟨rfl, rfl⟩

theorem execMfRelease_receiverOver (desc : Word32) :
    SameOutcome ReceiverAlike (execMfRelease desc s) (execMfRelease desc (s.receiverOver r)) := by
  have hstop : (s.receiverOver r).env.drvStop = s.env.drvStop := rfl
  refine .receiverCommand rfl (.ite (.next ⟨rfl, rfl⟩) ?_)
  rw [hstop]
  cases s.env.drvStop <;> exact .next ⟨rfl, rfl⟩

theorem rawFrom_receiverOver (h : Half) (n i : Nat) : rawFrom (s.receiverOver r) h n i = rawFrom s h n i := by
  induction n generalizing i with
  | zero => rfl
  | succ n ih => exact congrArg _ (ih _)

theorem rawFrame_receiverOver (h : Half) : rawFrame (s.receiverOver r) h = rawFrame s h :=
  rawFrom_receiverOver s r h frameN 0

theorem execMfHandleBuffer_receiverOver (half : BitVec 4) :
    SameOutcome ReceiverAlike (execMfHandleBuffer half s) (execMfHandleBuffer half (s.receiverOver r)) := by
  refine .hardwareEvent rfl (.withHalf fun h => ?_)
  rw [rawFrame_receiverOver]
  exact .ite (.next ⟨rfl, rfl⟩) (.ite (.next ⟨rfl, rfl⟩) (.refused _))

/-- Where a receiver instruction completes, it completes on every machine that agrees on the receiver's part, with the same receiver
and fatal flag. -/
theorem exec_receiverOver {i : Instr} (hi : isTone i = false) :
    SameOutcome ReceiverAlike (exec i s) (exec i (s.receiverOver r)) := by
  cases i with
  | mfSeize cb => exact execMfSeize_receiverOver s r cb
  | mfRelease desc => exact execMfRelease_receiverOver s r desc
  | mfHandleBuffer half => exact execMfHandleBuffer_receiverOver s r half
  | _ => cases hi

end

/-! ## What an instruction leaves to the other engine -/

section
variable {i : Instr} {s t : State}

theorem fillFrom_env (h : Half) (n p : Nat) (s : State) : (fillFrom h n p s).env = s.env :=
  fillFrom_induction (P := fun t => t.env = s.env) (fun _ _ ht => ht) n p s rfl

theorem exec_env (h : exec i s = .next t) : t.env = s.env := by
  cases exec_completes h with
  | block hf => exact fillFrom_env hf _ 0 s
  | _ => rfl

theorem exec_toneOver_next (hi : isTone i = true) (h : exec i s = .next t) (r : State) :
    ∃ t', exec i (s.toneOver r) = .next t' ∧ ToneAlike r t t' := by
  have hsame := exec_toneOver s r hi
  rw [h] at hsame
  exact hsame.of_next

theorem exec_receiverOver_next (hi : isTone i = false) (h : exec i s = .next t) (r : State) :
    ∃ t', exec i (s.receiverOver r) = .next t' ∧ ReceiverAlike t t' := by
  have hsame := exec_receiverOver s r hi
  rw [h] at hsame
  exact hsame.of_next

/-- Running the instruction on the machine itself shows what a tone-engine instruction keeps. -/
theorem exec_toneAlike_self (hi : isTone i = true) (h : exec i s = .next t) : ToneAlike s t t := by
  obtain ⟨t', hexec, halike⟩ := exec_toneOver_next hi h s
  rw [State.toneOver_self, h] at hexec
  exact Host.Outcome.next.inj hexec ▸ halike

end

/-! ## The two orders -/

section
variable {i j : Instr} {ci cj : Ctx} {s si sj : State}

/-- A receiver instruction that completes at `s` completes after a tone-engine instruction too, with the same receiver. -/
theorem execFrom_receiver_after_tone (hi : isTone i = true) (hj : isTone j = false) (hsi : execFrom ci i s = .next si)
    (hsj : execFrom cj j s = .next sj) : ∃ sij, execFrom cj j si = .next sij ∧ ReceiverAlike sj sij := by
  have hmr : si.mr = s.mr := exec_mr_of_isTone (s := { s with ctx := ci }) hi hsi
  have henv : si.env = s.env := exec_env (s := { s with ctx := ci }) hsi
  obtain ⟨-, hdraws, hfatal⟩ := exec_toneAlike_self hi hsi
  have hover : { s with ctx := cj }.receiverOver { si with ctx := cj } = { si with ctx := cj } :=
    State.receiverOver_eq (exec_grows hsi).cfg hmr henv rfl hdraws hfatal
  have hrun := exec_receiverOver_next hj hsj { si with ctx := cj }
  rwa [hover] at hrun

/-- A tone-engine instruction that completes at `s` completes after a receiver instruction too, with the same tone engine. -/
theorem execFrom_tone_after_receiver (hi : isTone i = true) (hj : isTone j = false) (hsi : execFrom ci i s = .next si)
    (hsj : execFrom cj j s = .next sj) : ∃ sji, execFrom ci i sj = .next sji ∧ ToneAlike sj si sji := by
  have hte : sj.te = s.te := exec_te_of_not_isTone (s := { s with ctx := cj }) hj hsj
  have henv : sj.env = s.env := exec_env (s := { s with ctx := cj }) hsj
  have hover : { s with ctx := ci }.toneOver { sj with ctx := ci } = { sj with ctx := ci } :=
    State.toneOver_eq (exec_grows hsj).cfg hte henv rfl
  obtain ⟨sji, hrun, hte, hdraws, hfatal⟩ := exec_toneOver_next hi hsi { sj with ctx := ci }
  rw [hover] at hrun
  exact ⟨sji, hrun, hte, hdraws, hfatal⟩

end

/-- Settles O56: in either order the second instruction finds its own engine's part as it was, and the first one's results stay. -/
theorem engineStepsCommute : Obligations.EngineStepsCommute := by
  intro i j ci cj s si sj hi hj hsi hsj
  obtain ⟨sij, hsij, hmr, hfatal⟩ := execFrom_receiver_after_tone hi hj hsi hsj
  obtain ⟨sji, hsji, hte, -, hfatal'⟩ := execFrom_tone_after_receiver hi hj hsi hsj
  refine ⟨sij, sji, hsij, hsji, ?_, ?_, hfatal.trans hfatal'.symm⟩
  · exact (exec_te_of_not_isTone hj hsij).trans hte.symm
  · exact hmr.trans (exec_mr_of_isTone hi hsji).symm

end Sys2Proof.Machine
end

section
/-! SUPPORT. The round trips between decoder and encoder: the header word's three fields, the two operations the decoder is built of,
and the headers it refuses (30_encoding.md R89 to R91). -/

namespace Sys2Proof.Machine

/-! ## The header's fields -/

theorem idOf_headerWord (op : BitVec 8) (id arg : BitVec 4) : idOf (headerWord op id arg) = id := by
  have key : ((op ++ id) ++ arg).extractLsb' 4 4 = id := by
    rw [BitVec.extractLsb'_append_eq_of_le (Nat.le_refl 4)]
    exact BitVec.extractLsb'_append_eq_right
  exact key

theorem argOf_headerWord (op : BitVec 8) (id arg : BitVec 4) : argOf (headerWord op id arg) = arg :=
  BitVec.extractLsb'_append_eq_right

/-- A header holds its three fields and nothing else (R89). -/
theorem headerWord_fields (h : Header) : headerWord (opOf h) (idOf h) (argOf h) = h := by
  have hopId : opOf h ++ idOf h = h.extractLsb' 4 12 := BitVec.extractLsb'_append_extractLsb'_eq_extractLsb' rfl
  have hall : h.extractLsb' 4 12 ++ argOf h = h.extractLsb' 0 16 := BitVec.extractLsb'_append_extractLsb'_eq_extractLsb' rfl
  calc headerWord (opOf h) (idOf h) (argOf h)
      = (opOf h ++ idOf h) ++ argOf h := rfl
    _ = h.extractLsb' 0 16 := by rw [hopId, hall]
    _ = h := BitVec.extractLsb'_eq_self

theorem eq_headerWord {h : Header} {op : BitVec 8} {id arg : BitVec 4} (hop : (opOf h).toNat = op.toNat) (hid : idOf h = id)
    (harg : argOf h = arg) : h = headerWord op id arg := by
  rw [← headerWord_fields h, BitVec.eq_of_toNat_eq hop, hid, harg]

/-! ## The decoder's two operations -/

theorem mustBeZero_eq_ok {α : Type} {field : BitVec 4} {e : DecodeError} {k : Except DecodeError α} {a : α} :
    mustBeZero field e k = .ok a ↔ field = 0 ∧ k = .ok a := by
  by_cases hf : field = 0
  · rw [mustBeZero, if_pos hf]
    exact ⟨fun hk => ⟨hf, hk⟩, And.right⟩
  · rw [mustBeZero, if_neg hf]
    exact ⟨nofun, fun ⟨hzero, _⟩ => absurd hzero hf⟩

theorem nextOperand_eq_ok {α : Type} {ws : List Word32} {k : Word32 → List Word32 → Except DecodeError α} {a : α} :
    nextOperand ws k = .ok a ↔ ∃ w rest, ws = w :: rest ∧ k w rest = .ok a := by
  cases ws <;> simp [nextOperand]

/-! ## The round trips -/

/-- Settles O1: the fields of the encoded header are the operands the decoder reads back. -/
theorem decodeOfEncodeIsTheInstruction : Obligations.DecodeOfEncodeIsTheInstruction := by
  intro i ws
  cases i <;>
    simp [encode, decode, mustBeZero, nextOperand, Laws.opOf_headerWord, idOf_headerWord, argOf_headerWord]

/-- Settles O2: each row of the decoder pins the header's three fields and the operand words it takes. -/
theorem decodedWordsAreTheEncoding : Obligations.DecodedWordsAreTheEncoding := by
  intro h ws rest i hdec
  unfold decode at hdec
  split at hdec <;> simp only [mustBeZero_eq_ok, nextOperand_eq_ok, Except.ok.injEq, Prod.mk.injEq, reduceCtorEq] at hdec
  next hop => obtain ⟨hid, harg, rfl, rfl⟩ := hdec; exact ⟨eq_headerWord hop hid harg, rfl⟩
  next hop => obtain ⟨harg, rfl, rfl⟩ := hdec; exact ⟨eq_headerWord hop rfl harg, rfl⟩
  next hop => obtain ⟨rfl, rfl⟩ := hdec; exact ⟨eq_headerWord hop rfl rfl, rfl⟩
  next hop => obtain ⟨harg, str, _, rfl, cb, _, rfl, rfl, rfl⟩ := hdec; exact ⟨eq_headerWord hop rfl harg, rfl⟩
  next hop => obtain ⟨harg, str, _, rfl, cb, _, rfl, rfl, rfl⟩ := hdec; exact ⟨eq_headerWord hop rfl harg, rfl⟩
  next hop => obtain ⟨harg, buf, _, rfl, len, _, rfl, cb, _, rfl, rfl, rfl⟩ := hdec; exact ⟨eq_headerWord hop rfl harg, rfl⟩
  next hop => obtain ⟨harg, buf, _, rfl, len, _, rfl, rfl, rfl⟩ := hdec; exact ⟨eq_headerWord hop rfl harg, rfl⟩
  next hop => obtain ⟨harg, rfl, rfl⟩ := hdec; exact ⟨eq_headerWord hop rfl harg, rfl⟩
  next hop => obtain ⟨hid, rfl, rfl⟩ := hdec; exact ⟨eq_headerWord hop hid rfl, rfl⟩
  next hop => obtain ⟨hid, harg, cb, _, rfl, rfl, rfl⟩ := hdec; exact ⟨eq_headerWord hop hid harg, rfl⟩
  next hop => obtain ⟨hid, harg, desc, _, rfl, rfl, rfl⟩ := hdec; exact ⟨eq_headerWord hop hid harg, rfl⟩
  next hop => obtain ⟨hid, rfl, rfl⟩ := hdec; exact ⟨eq_headerWord hop hid rfl, rfl⟩

/-! ## Reserved headers -/

/-- A header whose `op` is outside R90's table, or whose `id` or `arg` field is nonzero where its `op` requires 0 (R91 (a)). -/
def ReservedHeader (h : Header) : Prop :=
  (opOf h ∉ [0x01#8, 0x02#8, 0x03#8, 0x04#8, 0x05#8, 0x06#8, 0x07#8, 0x08#8, 0x09#8, 0x11#8, 0x12#8, 0x19#8]) ∨
  (opOf h ∈ [0x01#8, 0x09#8, 0x11#8, 0x12#8, 0x19#8] ∧ idOf h ≠ 0) ∨
  (opOf h ∈ [0x01#8, 0x02#8, 0x04#8, 0x05#8, 0x06#8, 0x07#8, 0x08#8, 0x11#8, 0x12#8] ∧ argOf h ≠ 0)

/-- No instruction is encoded with a reserved header. -/
theorem not_reservedHeader_encode (i : Instr) : ¬ ReservedHeader (encode i).1 := by
  cases i <;> simp [ReservedHeader, encode, Laws.opOf_headerWord, idOf_headerWord, argOf_headerWord]

theorem decode_of_decodeRequest {h : Header} {ws : List Word32} {i : Instr} (hreq : decodeRequest h ws = .ok i) :
    decode h ws = .ok (i, []) := by
  unfold decodeRequest at hreq
  split at hreq
  · next hdec => cases hreq; exact hdec
  · cases hreq
  · cases hreq

/-- A reserved header spells no command, whatever operand words come with it: what decodes has an instruction's header. -/
theorem decodeRequest_of_reservedHeader {h : Header} (hres : ReservedHeader h) (ws : List Word32) :
    ∃ why, decodeRequest h ws = .error why := by
  cases hreq : decodeRequest h ws with
  | error why => exact ⟨why, rfl⟩
  | ok i =>
    obtain ⟨rfl, -⟩ := decodedWordsAreTheEncoding h ws [] i (decode_of_decodeRequest hreq)
    exact absurd hres (not_reservedHeader_encode i)

theorem step_of_fetch_bad {s : State} {why : DecodeError} (hrun : running s) (hf : fetch s = .bad why) :
    step s = .refused (.invalidCommand why) := by
  obtain ⟨hfatal, hcfg⟩ := hrun
  simp [step, hfatal, hcfg, hf]

/-- Settles O4. -/
theorem reservedHeadersAreRefused : Obligations.ReservedHeadersAreRefused := by
  intro s r rest hrun hin hres
  obtain ⟨why, hbad⟩ := decodeRequest_of_reservedHeader (h := r.header) hres r.operands
  exact ⟨why, step_of_fetch_bad hrun (fetch_bad s r rest why hin hbad)⟩

/-- Settles O3. -/
theorem headerWordsOfTheTableDecode : Obligations.HeaderWordsOfTheTableDecode := by
  unfold Obligations.HeaderWordsOfTheTableDecode
  decide

end Sys2Proof.Machine
end

section
/-! SUPPORT. The table of digit characters both ways, and `DIGIT_ENCODE` as a condition on every character (30_encoding.md R81, R82). -/

namespace Sys2Proof.Machine

/-! ## The digit table -/

/-- The code of a digit is the ASCII value minus 0x30 (R81). -/
theorem digitCode_digit {c : Ascii} (hlo : 0x30#8 ≤ c) (hhi : c ≤ 0x39#8) : digitCode c = some ((c - 0x30#8).truncate 4) := by
  simp [digitCode, hlo, hhi]

theorem toNat_truncate_digit {c : Ascii} (hlo : 0x30#8 ≤ c) (hhi : c ≤ 0x39#8) :
    ((c - 0x30#8).truncate 4).toNat = c.toNat - 0x30 := by
  bv_omega

/-- The character of a digit's code is the digit. -/
theorem digitChar_digit {c : Ascii} (hlo : 0x30#8 ≤ c) (hhi : c ≤ 0x39#8) : digitChar ((c - 0x30#8).truncate 4) = c := by
  have hval := toNat_truncate_digit hlo hhi
  have hle : (c - 0x30#8).truncate 4 ≤ 9#4 := by bv_omega
  rw [digitChar, if_pos hle]
  bv_omega

theorem eq_digitChar_of_digitCode {c : Ascii} {d : DigitCode} (h : digitCode c = some d) : c = digitChar d := by
  by_cases hdigit : 0x30#8 ≤ c ∧ c ≤ 0x39#8
  · obtain ⟨hlo, hhi⟩ := hdigit
    rw [digitCode_digit hlo hhi] at h
    cases h
    exact (digitChar_digit hlo hhi).symm
  · rw [digitCode, if_neg hdigit] at h
    split_ifs at h <;> cases h <;> assumption

/-- A character's code in a mode is the table's, and MF takes any but 0xF, the code of `'D'` (R82). -/
theorem encodeChar_eq_some {mode : DigitMode} {c : Ascii} {d : DigitCode} :
    encodeChar mode c = some d ↔ digitCode c = some d ∧ (mode = .mf → d ≠ 0xF) := by
  unfold encodeChar
  cases digitCode c with
  | none => simp
  | some e =>
    by_cases hD : mode = .mf ∧ e = 0xF
    · obtain ⟨rfl, rfl⟩ := hD
      simp [eq_comm]
    · simp only [if_neg hD, Option.some.injEq]
      exact ⟨fun he => ⟨he, fun hmf hd => hD ⟨hmf, he.trans hd⟩⟩, And.left⟩

theorem encodeChar_dtmf (c : Ascii) : encodeChar .dtmf c = digitCode c := by
  ext d
  simp [encodeChar_eq_some]

theorem encodeChar_mf (c : Ascii) : encodeChar .mf c = if digitCode c = some 0xF then none else digitCode c := by
  ext d
  rw [encodeChar_eq_some]
  by_cases hD : digitCode c = some 0xF
  · simp [hD, eq_comm]
  · rw [if_neg hD]
    exact ⟨And.left, fun hd => ⟨hd, fun _ he => hD (he ▸ hd)⟩⟩

/-- Settles O17. -/
theorem digitCodesFollowTheTable : Obligations.DigitCodesFollowTheTable := by
  refine ⟨by decide, fun _ _ => eq_digitChar_of_digitCode, fun c hlo hhi => ?_, by decide,
    fun c => ⟨encodeChar_dtmf c, encodeChar_mf c⟩⟩
  rw [digitCode_digit hlo hhi, Option.map_some, toNat_truncate_digit hlo hhi]

/-! ## `DIGIT_ENCODE` -/

/-- A list of characters encodes to the codes of its characters, one by one. -/
theorem encodeChars_eq_some {mode : DigitMode} {cs : List Ascii} {codes : List DigitCode} :
    encodeChars mode cs = some codes ↔ List.Forall₂ (fun c d => encodeChar mode c = some d) cs codes := by
  induction cs generalizing codes with
  | nil => simp [encodeChars, eq_comm]
  | cons c cs ih =>
    constructor
    · intro h
      obtain ⟨d, ds, hd, hds, rfl⟩ := encodeChars_cons h
      exact .cons hd (ih.1 hds)
    · rintro (_ | ⟨hd, hds⟩)
      simp [encodeChars, hd, ih.2 hds]

/-- The length is tested before the characters (R82). -/
theorem digitEncode_eq_some_iff {cfg : Cfg} {mode : DigitMode} {cs : List Ascii} {codes : List DigitCode} :
    digitEncode cfg mode cs = some codes ↔ cs.length ≤ cfg.maxDigits ∧ encodeChars mode cs = some codes := by
  unfold digitEncode
  split <;> simp <;> omega

/-- Settles O16: the codes stand one by one for the characters, and `encodeChar_eq_some` says when a character has one. -/
theorem digitEncodeIsAllOrNothing : Obligations.DigitEncodeIsAllOrNothing := by
  intro cfg mode chars codes
  rw [digitEncode_eq_some_iff, encodeChars_eq_some, List.forall₂_iff_get]
  simp only [encodeChar_eq_some, List.get_eq_getElem]
  constructor
  · rintro ⟨hfit, hlen, hall⟩
    refine ⟨hfit, hlen.symm, fun k c d hc hd => ?_⟩
    obtain ⟨hk, rfl⟩ := List.getElem?_eq_some_iff.1 hc
    obtain ⟨hk', rfl⟩ := List.getElem?_eq_some_iff.1 hd
    exact hall k hk hk'
  · rintro ⟨hfit, hlen, hall⟩
    exact ⟨hfit, hlen.symm, fun k hk hk' => hall k _ _ (List.getElem?_eq_getElem hk) (List.getElem?_eq_getElem hk')⟩

end Sys2Proof.Machine
end

section
/-! SUPPORT. The oscillator in numbers: the rounding of a tuning word, the phase after `n` ticks, `scale` as sign and magnitude, and
the bounds that keep a pair's sum within 16 bits (40_nco.md R102 to R110). -/

namespace Sys2Proof.Machine

/-! ## Setting an oscillator (R102, R110) -/

/-- `nco_tw` is the integer nearest to `65536 f / FS_OUT`, a tie rounded up. -/
theorem ncoTw_bounds (f : Q) : (ncoTw f : Q) ≤ 65536 * f / 8000 + 1 / 2 ∧ 65536 * f / 8000 + 1 / 2 < (ncoTw f : Q) + 1 := by
  have hlt := Rat.lt_floor_add_one (65536 * f / (fsOut : Q) + 1 / 2)
  push_cast at hlt
  exact ⟨Rat.floor_le _, hlt⟩

theorem ncoTw_nonneg {f : Q} (hf : 0 ≤ f) : 0 ≤ ncoTw f := by
  refine Rat.le_floor_iff.2 ?_
  push_cast
  positivity

/-- Settles O30: the frequency bound is the rounding bound of the tuning word times `8000 / 65536`. -/
theorem tuningWordIsTheRoundedRatio : Obligations.TuningWordIsTheRoundedRatio := by
  intro f g hf hfits
  have htw : ((ncoSet f g).tw.toNat : Q) = (ncoTw f : Q) := by
    exact_mod_cast tuningWord_toNat f ⟨ncoTw_nonneg hf, hfits⟩
  obtain ⟨hle, hlt⟩ := ncoTw_bounds f
  rw [htw]
  refine ⟨rfl, rfl, rfl, hle, hlt, ?_, ?_⟩ <;> linarith

/-! ## The phase (R105, R106, R109) -/

theorem oscAfter_silent (cfg : Cfg) (n : Nat) {o : Osc} (h : o.freq = 0) : oscAfter cfg n o = o := by
  induction n with
  | zero => rfl
  | succ n ih => rw [oscAfter, ncoTick_silent cfg o h, ih]

theorem ncoTick_sounding (cfg : Cfg) {o : Osc} (h : o.freq ≠ 0) : (ncoTick cfg o).1 = { o with phase := o.phase + o.tw } := by
  simp [ncoTick, h]

theorem oscAfter_sounding (cfg : Cfg) (n : Nat) {o : Osc} (h : o.freq ≠ 0) :
    oscAfter cfg n o = { o with phase := o.phase + BitVec.ofNat 16 (n * o.tw.toNat) } := by
  induction n with
  | zero => simp [oscAfter]
  | succ n ih =>
    have hn : (oscAfter cfg n o).freq ≠ 0 := by rw [ih]; exact h
    rw [oscAfter_succ, ncoTick_sounding cfg hn, ih, Nat.succ_mul, BitVec.ofNat_add, BitVec.ofNat_toNat, BitVec.setWidth_eq,
      BitVec.add_assoc]

/-- A multiple `n a` is 0 modulo `m` exactly when `n` is a multiple of `m / gcd m a`. -/
theorem dvd_mul_iff_div_gcd_dvd {m : Nat} (hm : 0 < m) (n a : Nat) : m ∣ n * a ↔ m / Nat.gcd m a ∣ n := by
  rw [Nat.div_dvd_iff_dvd_mul (Nat.gcd_dvd_left m a) (Nat.gcd_pos_of_pos_left a hm), Nat.dvd_gcd_mul_iff_dvd_mul,
    Nat.mul_comm]

/-- Settles O31, from the closed form of the phase after `n` ticks. -/
theorem phasePeriodIsTheGcdQuotient : Obligations.PhasePeriodIsTheGcdQuotient := by
  intro cfg o n
  refine ⟨fun hsounds hzero => ?_, fun hsilent => ⟨oscAfter_silent cfg n hsilent, by rw [ncoTick_silent cfg o hsilent]⟩⟩
  have hphase : (oscAfter cfg n o).phase.toNat = n * o.tw.toNat % 65536 := by
    simp [oscAfter_sounding cfg n hsounds, hzero]
  refine ⟨hphase, ?_⟩
  rw [← BitVec.toNat_inj, hphase, ← dvd_mul_iff_div_gcd_dvd (by decide), Nat.dvd_iff_mod_eq_zero]
  rfl

/-! ## `scale` (R104) -/

@[simp] theorem scale_zero (g : Q) : scale 0 g = 0 := by
  simpa [scale] using Rat.floor_intCast 0

/-- The magnitude is scaled and rounded down, then the sign is applied again. -/
theorem scale_eq_sign_mul_floor (raw : Int) (g : Q) : scale raw g = raw.sign * ((raw.natAbs : Q) * g).floor := by
  obtain h | rfl | h := lt_trichotomy raw 0
  · have hmag : ((-raw : Int) : Q) = (raw.natAbs : Q) := by
      rw [← Int.cast_natCast, Int.ofNat_natAbs_of_nonpos h.le]
    rw [scale, if_neg h.not_ge, hmag, Int.sign_eq_neg_one_of_neg h, Int.neg_one_mul]
  · simp
  · have hmag : (raw : Q) = (raw.natAbs : Q) := by rw [← Int.cast_natCast, Int.natAbs_of_nonneg h.le]
    rw [scale, if_pos h.le, hmag, Int.sign_eq_one_of_pos h, Int.one_mul]

theorem scale_neg (raw : Int) (g : Q) : scale (-raw) g = -scale raw g := by
  simp [scale_eq_sign_mul_floor]

theorem floor_natCast_mul_nonneg (n : Nat) {g : Q} (hg : 0 ≤ g) : 0 ≤ ((n : Q) * g).floor :=
  Rat.le_floor_iff.2 (by push_cast; positivity)

theorem natAbs_scale (raw : Int) {g : Q} (hg : 0 ≤ g) : ((scale raw g).natAbs : Int) = ((raw.natAbs : Q) * g).floor := by
  by_cases hraw : raw = 0
  · subst hraw
    simpa using (Rat.floor_intCast 0).symm
  · rw [scale_eq_sign_mul_floor, Int.natAbs_mul, Int.natAbs_sign_of_ne_zero hraw, Nat.one_mul,
      Int.natAbs_of_nonneg (floor_natCast_mul_nonneg _ hg)]

/-- Settles O32: the magnitude of the result is the floor of the product's magnitude. -/
theorem scaleTruncatesTowardZero : Obligations.ScaleTruncatesTowardZero := by
  intro raw g hg
  have hmag : ((scale raw g).natAbs : Q) = (((raw.natAbs : Q) * g).floor : Q) := by
    rw [← natAbs_scale raw hg, Int.cast_natCast]
  have hlt := Rat.lt_floor_add_one ((raw.natAbs : Q) * g)
  push_cast at hlt
  rw [hmag]
  refine ⟨scale_neg raw g, Rat.floor_le _, hlt, fun hraw => ?_⟩
  rw [scale_eq_sign_mul_floor]
  exact Int.mul_nonneg (Int.sign_nonneg_iff.2 hraw) (floor_natCast_mul_nonneg _ hg)

/-! ## The table look-up (R61, R105) -/

theorem sineIndex_eq_div (cfg : Cfg) (phase : Phase) : sineIndex cfg phase = phase.toNat / 2 ^ (16 - cfg.tableBits) := by
  rw [sineIndex, BitVec.toNat_ushiftRight, Nat.shiftRight_eq_div_pow]

theorem sineIndex_lt {cfg : Cfg} (hbits : cfg.tableBits ≤ 16) (phase : Phase) : sineIndex cfg phase < 2 ^ cfg.tableBits := by
  rw [sineIndex_eq_div]
  refine Nat.div_lt_of_lt_mul ?_
  rw [← Nat.pow_add, Nat.sub_add_cancel hbits]
  exact phase.isLt

theorem tableSize_of_wellFormed {cfg : Cfg} (hw : Cfg.wellFormed cfg = true) :
    cfg.tableBits ≤ 16 ∧ cfg.sineTable.length = 2 ^ cfg.tableBits := by
  simp only [Cfg.wellFormed, Cfg.tableOk, Bool.and_eq_true, decide_eq_true_eq] at hw
  tauto

/-- Every phase has a table entry. -/
theorem sineTable_getElem?_sineIndex {cfg : Cfg} (hw : Cfg.wellFormed cfg = true) (phase : Phase) :
    cfg.sineTable[sineIndex cfg phase]? = some (readSine cfg (sineIndex cfg phase)) := by
  obtain ⟨hbits, hlen⟩ := tableSize_of_wellFormed hw
  have hin : sineIndex cfg phase < cfg.sineTable.length := hlen ▸ sineIndex_lt hbits phase
  simp [readSine, hin]

theorem amp_concat (xs : List Sample) (x : Sample) : Cfg.amp (xs ++ [x]) = max (Cfg.amp xs) x.toInt.natAbs := by
  simp [Cfg.amp]

theorem natAbs_le_amp {table : List Sample} {x : Sample} (hx : x ∈ table) : x.toInt.natAbs ≤ Cfg.amp table := by
  induction table using List.reverseRecOn with
  | nil => simp at hx
  | append_singleton xs y ih =>
    rw [amp_concat]
    obtain hxs | rfl : x ∈ xs ∨ x = y := by simpa using hx
    · exact (ih hxs).trans (le_max_left _ _)
    · exact le_max_right _ _

/-! ## The pair's sum (R107, R12 (c)) -/

/-- No component exceeds `floor(AMP g)` in magnitude. -/
theorem natAbs_exactSample_le {cfg : Cfg} (hw : Cfg.wellFormed cfg = true) {o : Osc} (hg : 0 ≤ o.gain) :
    ((exactSample cfg o).natAbs : Int) ≤ ((Cfg.amp cfg.sineTable : Q) * o.gain).floor := by
  unfold exactSample
  split
  next => exact floor_natCast_mul_nonneg _ hg
  next =>
    rw [natAbs_scale _ hg]
    have hamp := natAbs_le_amp (List.mem_of_getElem? (sineTable_getElem?_sineIndex hw o.phase))
    exact Rat.floor_monotone (mul_le_mul_of_nonneg_right (by exact_mod_cast hamp) hg)

/-- A tick's sample is the exact one when that fits 16 bits. -/
theorem ncoTick_sample_toInt {cfg : Cfg} {o : Osc} (hfits : (exactSample cfg o).natAbs ≤ 32767) :
    (ncoTick cfg o).2.toInt = exactSample cfg o := by
  by_cases h : o.freq = 0
  · simp [ncoTick_silent cfg o h, exactSample, h]
  · simp only [exactSample, if_neg h] at hfits ⊢
    rw [ncoTick, if_neg h]
    exact hold16_toInt _ (by omega)

/-- R12 (c) for the exact samples. -/
theorem natAbs_exactSample_add_le {cfg : Cfg} (hw : Cfg.wellFormed cfg = true) {o0 o1 : Osc}
    (hgains : gainsOk (Cfg.amp cfg.sineTable) o0.gain o1.gain = true) :
    (exactSample cfg o0).natAbs + (exactSample cfg o1).natAbs ≤ 32767 := by
  simp only [gainsOk, Bool.and_eq_true, decide_eq_true_eq] at hgains
  obtain ⟨⟨hg0, hg1⟩, hsum⟩ := hgains
  have h0 := natAbs_exactSample_le hw hg0
  have h1 := natAbs_exactSample_le hw hg1
  omega

/-- Settles O33: the two magnitudes together fit 16 bits, so neither component nor the sum leaves the register's range. -/
theorem pairSumNeverOverflows : Obligations.PairSumNeverOverflows := by
  intro cfg ch hw hgains
  have hfits := natAbs_exactSample_add_le hw hgains
  refine ⟨?_, rfl, fun o hsounds => ⟨ncoTick_sounding cfg hsounds, readSine cfg (sineIndex cfg o.phase), ?_, ?_⟩,
    fun o hsilent => ⟨oscAfter_silent cfg 1 hsilent, ?_⟩⟩
  · rw [pairTick, ncoTick_sample_toInt (by omega), ncoTick_sample_toInt (by omega)]
    exact hold16_toInt _ (by omega)
  · exact sineIndex_eq_div cfg o.phase ▸ sineTable_getElem?_sineIndex hw o.phase
  · rw [exactSample, if_neg hsounds]
  · rw [exactSample, if_pos hsilent]

end Sys2Proof.Machine
end

section
/-! SUPPORT. Runs of ticks that deliver no event, packaged once: a claimed sequence of channels is the run when every tick takes each
to the next (41_channel_fsm.md R120). -/

namespace Sys2Proof.Machine

section
variable {cfg : Cfg} {audio : Cells 16} {c : ChanId} {ch : ChannelInfo}

/-! ## Events, one tick at a time -/

@[simp] theorem eventsWithin_zero : eventsWithin cfg audio c 0 ch = [] := rfl

theorem eventsWithin_succ (n : Nat) :
    eventsWithin cfg audio c (n + 1) ch = eventsWithin cfg audio c n ch ++ eventsAt cfg audio c n ch := by
  simp [eventsWithin, List.range_succ]

/-- The first tick's events come before those of the ticks after it. -/
theorem eventsWithin_succ_eq_first_append (n : Nat) :
    eventsWithin cfg audio c (n + 1) ch =
      (chTick cfg audio c ch).events ++ eventsWithin cfg audio c n (chTick cfg audio c ch).ch := by
  simp only [eventsWithin, List.range_succ_eq_map, List.flatMap_cons, List.flatMap_map]
  rfl

theorem chanAfter_add (m n : Nat) :
    chanAfter cfg audio c (m + n) ch = chanAfter cfg audio c n (chanAfter cfg audio c m ch) := by
  induction n with
  | zero => rfl
  | succ n ih => rw [← Nat.add_assoc, chanAfter_succ, chanAfter_succ, ih]

/-! ## Quiet runs -/

/-- For `n` ticks the channel goes through `path`, gives `samples` and delivers no event. -/
structure QuietRun (cfg : Cfg) (audio : Cells 16) (c : ChanId) (ch : ChannelInfo) (path : Nat → ChannelInfo)
    (samples : Nat → Sample) (n : Nat) : Prop where
  chan : ∀ k, k ≤ n → chanAfter cfg audio c k ch = path k
  sample : ∀ k, k < n → sampleAt cfg audio c k ch = samples k
  quiet : eventsWithin cfg audio c n ch = []

/-- A path is the run when it begins at the channel and each of its ticks is quiet and goes one place on; the tick may use that the
run has come to its place. -/
theorem QuietRun.of_ticks {path : Nat → ChannelInfo} {samples : Nat → Sample} {n : Nat} (hstart : path 0 = ch)
    (htick : ∀ k, k < n → chanAfter cfg audio c k ch = path k →
      chTick cfg audio c (path k) = tickOf (path (k + 1)) (samples k)) :
    QuietRun cfg audio c ch path samples n := by
  induction n with
  | zero =>
    refine ⟨fun k hk => ?_, fun k hk => absurd hk k.not_lt_zero, rfl⟩
    rw [Nat.le_zero.1 hk]
    exact hstart.symm
  | succ n ih =>
    obtain ⟨hchan, hsample, hquiet⟩ := ih fun k hk => htick k (hk.trans n.lt_succ_self)
    have hn := hchan n le_rfl
    have hlast := htick n n.lt_succ_self hn
    refine ⟨fun k hk => ?_, fun k hk => ?_, ?_⟩
    · obtain hk | rfl := Nat.le_succ_iff.1 hk
      · exact hchan k hk
      · rw [chanAfter_succ, hn, hlast]
        rfl
    · obtain hk | rfl := Nat.lt_succ_iff_lt_or_eq.1 hk
      · exact hsample k hk
      · rw [sampleAt, hn, hlast]
        rfl
    · rw [eventsWithin_succ, hquiet, eventsAt, hn, hlast]
      rfl

/-! ## A channel at rest (R126) -/

theorem chTick_idle (h : ch.state = .idle) : chTick cfg audio c ch = tickOf ch 0 := by simp only [chTick, h, tickIdle]

theorem idle_quietRun (h : ch.state = .idle) (n : Nat) : QuietRun cfg audio c ch (fun _ => ch) (fun _ => 0) n :=
  .of_ticks rfl fun _ _ _ => chTick_idle h

/-! ## Completion (R125, R148) -/

theorem complete_of_callback {cb : Handle} (h : ch.cb = some cb) : complete c ch = [.teDone c cb] := by simp only [complete, h]

theorem complete_of_no_callback (h : ch.cb = none) : complete c ch = [] := by simp only [complete, h]

end

theorem toneEndTick_events (cfg : Cfg) (ch : ChannelInfo) (next : ChState) (timer : Nat) :
    (toneEndTick cfg ch next timer).events = [] := by
  rcases toneEndTick_cases cfg ch next timer with ⟨-, e⟩ | ⟨-, -, e⟩ | ⟨-, -, e⟩ <;> rw [e] <;> rfl

theorem silenceTick_events (ch : ChannelInfo) (f : ChannelInfo → ChannelInfo) : (silenceTick ch f).events = [] := by
  rcases silenceTick_cases ch f with ⟨-, e⟩ | ⟨-, e⟩ <;> rw [e] <;> rfl

theorem sendHead_events_cases (cfg : Cfg) (c : ChanId) (ch : ChannelInfo) (load : DigitCode → ChannelInfo → ChannelInfo) :
    (sendHead cfg c ch load).events = [] ∨
    ((sendHead cfg c ch load).ch.state = .idle ∧ (sendHead cfg c ch load).events = complete c ch) := by
  rcases sendHead_cases cfg c ch load with ⟨-, e⟩ | ⟨-, -, e⟩ | ⟨-, e⟩ <;> rw [e]
  · cases cfg.emptyAbortCallback with
    | false => exact .inl rfl
    | true => exact .inr ⟨rfl, rfl⟩
  · exact .inr ⟨rfl, rfl⟩
  · exact .inl rfl

/-- A tick delivers an event only where it leaves the channel Idle. -/
theorem chTick_events_cases (cfg : Cfg) (audio : Cells 16) (c : ChanId) (ch : ChannelInfo) :
    (chTick cfg audio c ch).events = [] ∨
    ((chTick cfg audio c ch).ch.state = .idle ∧ (chTick cfg audio c ch).events = complete c ch) := by
  unfold chTick
  cases ch.state with
  | busyWaitToneEnd | ringingWaitToneEnd | sendMfWaitToneEnd | sendDtmfWaitToneEnd =>
    exact .inl (toneEndTick_events _ _ _ _)
  | busyWaitSilenceEnd | ringingWaitSilenceEnd | sendMfWaitSilenceEnd | sendDtmfWaitSilenceEnd =>
    exact .inl (silenceTick_events _ _)
  | sendMf | sendDtmf => exact sendHead_events_cases _ _ _ _
  | sendAudioWait =>
    dsimp only [tickSendAudioWait]
    split
    · exact .inr ⟨rfl, rfl⟩
    · exact .inl rfl
  | _ => exact .inl rfl

/-- Settles O28, by induction on the number of ticks: from the first completion on the channel is at rest. -/
theorem channelCompletesAtMostOnce : Obligations.ChannelCompletesAtMostOnce := by
  intro cfg audio c ch n
  induction n generalizing ch with
  | zero => exact ⟨Nat.zero_le _, fun h => absurd rfl h⟩
  | succ n ih =>
    rw [eventsWithin_succ_eq_first_append]
    obtain hquiet | ⟨hidle, hdone⟩ := chTick_events_cases cfg audio c ch
    · rw [hquiet]
      exact ih _
    · have hrun : QuietRun cfg audio c (chTick cfg audio c ch).ch _ _ n := idle_quietRun hidle n
      obtain ⟨hchan, -, hrest⟩ := hrun
      rw [hrest, List.append_nil, hdone, chanAfter, hchan n le_rfl]
      exact ⟨complete_length c ch, fun _ => hidle⟩

end Sys2Proof.Machine
end

section
/-! SUPPORT. Tones and silences tick by tick: the dial tone, a tone burst with its zero-cross deferral, and a silence
(41_channel_fsm.md R123, R124, R128, R149). -/

namespace Sys2Proof.Machine

section
variable {cfg : Cfg} {audio : Cells 16} {c : ChanId} {ch : ChannelInfo}

/-! ## A channel whose pair sounds -/

/-- A channel whose oscillators have advanced `k` times, with its timer at `timer`. -/
def afterSounding (cfg : Cfg) (ch : ChannelInfo) (k timer : Nat) : ChannelInfo :=
  { ch with tone0 := oscAfter cfg k ch.tone0, tone1 := oscAfter cfg k ch.tone1, timer := timer }

/-- One more tick of the pair is one more advance of the oscillators. -/
theorem pairTick_afterSounding (k timer : Nat) :
    (pairTick cfg (afterSounding cfg ch k timer)).1 = afterSounding cfg ch (k + 1) timer := by
  simp only [pairTick, afterSounding, oscAfter_succ]

/-! ## Dial tone (R128) -/

theorem chTick_genDialToneWait (h : ch.state = .genDialToneWait) :
    chTick cfg audio c ch = tickOf (pairTick cfg ch).1 (pairTick cfg ch).2 := by
  simp only [chTick, h, tickGenDialToneWait]

theorem dialTone_quietRun (h : ch.state = .genDialToneWait) (n : Nat) :
    QuietRun cfg audio c ch (fun k => afterSounding cfg ch k ch.timer)
      (fun k => (pairTick cfg (afterSounding cfg ch k ch.timer)).2) n := by
  refine .of_ticks rfl fun k _ _ => ?_
  rw [chTick_genDialToneWait (ch := afterSounding cfg ch k ch.timer) h, pairTick_afterSounding]

/-! ## A tone burst (R123) -/

/-- The timer's part of a burst: it counts down to 0 and stays there while the zero-cross check defers the end. -/
def burstPath (cfg : Cfg) (ch : ChannelInfo) (k : Nat) : ChannelInfo := afterSounding cfg ch k (ch.timer - k)

/-- A tone-end tick outputs the pair, whichever way it ends. -/
theorem toneEndTick_sample (cfg : Cfg) (ch : ChannelInfo) (next : ChState) (timer : Nat) :
    (toneEndTick cfg ch next timer).sample = (pairTick cfg ch).2 := by
  rcases toneEndTick_cases cfg ch next timer with ⟨-, e⟩ | ⟨-, -, e⟩ | ⟨-, -, e⟩ <;> rw [e] <;> rfl

variable {next : ChState} {nextTimer z : Nat}

/-- A burst stays in its state, so its ticks are all tone-end ticks with the same follower. -/
theorem chTick_burstPath (hend : toneEnd cfg ch = some (next, nextTimer)) (k : Nat) :
    chTick cfg audio c (burstPath cfg ch k) = toneEndTick cfg (burstPath cfg ch k) next nextTimer :=
  chTick_toneEnd (ch := burstPath cfg ch k) hend audio c

theorem sampleAt_of_burstPath (hend : toneEnd cfg ch = some (next, nextTimer)) {k : Nat}
    (hchan : chanAfter cfg audio c k ch = burstPath cfg ch k) :
    sampleAt cfg audio c k ch = (pairTick cfg (burstPath cfg ch k)).2 := by
  rw [sampleAt, hchan, chTick_burstPath hend, toneEndTick_sample]

/-- While the timer runs or the sample is outside the band, the burst goes on. -/
theorem chTick_burst_goes_on (hend : toneEnd cfg ch = some (next, nextTimer)) {k : Nat}
    (hout : ch.timer ≤ k → cfg.zcThreshold < (pairTick cfg (burstPath cfg ch k)).2.toInt.natAbs) :
    chTick cfg audio c (burstPath cfg ch k) =
      tickOf (burstPath cfg ch (k + 1)) (pairTick cfg (burstPath cfg ch k)).2 := by
  have htimer : (burstPath cfg ch k).timer = ch.timer - k := rfl
  have hpair (t : Nat) : { (pairTick cfg (burstPath cfg ch k)).1 with timer := t } = afterSounding cfg ch (k + 1) t := by
    rw [burstPath, pairTick_afterSounding]
    rfl
  rw [chTick_burstPath hend]
  obtain ⟨-, e⟩ | ⟨hzero, hin, -⟩ | ⟨hzero, -, e⟩ := toneEndTick_cases cfg (burstPath cfg ch k) next nextTimer
  · rw [e, hpair, htimer, Nat.sub_sub]
    rfl
  · have := hout (by omega)
    omega
  · have hstay : ch.timer - k = ch.timer - (k + 1) := by omega
    rw [e, burstPath, pairTick_afterSounding, hstay]
    rfl

/-- Once the timer has run out, a sample inside the band ends the burst. -/
theorem chTick_burst_ends (hend : toneEnd cfg ch = some (next, nextTimer)) {k : Nat} (hk : ch.timer ≤ k)
    (hin : (pairTick cfg (burstPath cfg ch k)).2.toInt.natAbs ≤ cfg.zcThreshold) :
    chTick cfg audio c (burstPath cfg ch k) =
      tickOf { afterSounding cfg ch (k + 1) nextTimer with state := next } (pairTick cfg (burstPath cfg ch k)).2 := by
  have htimer : (burstPath cfg ch k).timer = ch.timer - k := rfl
  rw [chTick_burstPath hend]
  obtain ⟨hpos, -⟩ | ⟨-, -, e⟩ | ⟨-, hout, -⟩ := toneEndTick_cases cfg (burstPath cfg ch k) next nextTimer
  · omega
  · rw [e, burstPath, pairTick_afterSounding]
    rfl
  · omega

theorem burst_quietRun (hend : toneEnd cfg ch = some (next, nextTimer))
    (hout : ∀ k, k < z → cfg.zcThreshold < (sampleAt cfg audio c (ch.timer + k) ch).toInt.natAbs) :
    QuietRun cfg audio c ch (burstPath cfg ch) (fun k => (pairTick cfg (burstPath cfg ch k)).2) (ch.timer + z) := by
  refine .of_ticks rfl fun k hk hchan => chTick_burst_goes_on hend fun htimer => ?_
  have hk' := hout (k - ch.timer) (by omega)
  rwa [Nat.add_sub_cancel' htimer, sampleAt_of_burstPath hend hchan] at hk'

/-! ## A silence (R124) -/

/-- What a silence state does when its timer has run out: the busy and congestion loop starts its tone again (R132), the others move
on (R135, R138, R141). -/
def afterSilence (next : ChState) (ch : ChannelInfo) : ChannelInfo :=
  if ch.state = .busyWaitSilenceEnd then { rewound ch with timer := ch.reload, state := next }
  else { ch with state := next }

theorem chTick_silenceEnd (h : silenceEnd ch.state = some next) : chTick cfg audio c ch = silenceTick ch (afterSilence next) := by
  unfold chTick
  cases hst : ch.state <;> rw [hst] at h <;> cases h
  case busyWaitSilenceEnd | ringingWaitSilenceEnd | sendMfWaitSilenceEnd | sendDtmfWaitSilenceEnd =>
    simp [tickBusyWaitSilenceEnd, tickRingingWaitSilenceEnd, tickSendMfWaitSilenceEnd, tickSendDtmfWaitSilenceEnd, silenceTick,
      afterSilence, rewound, hst]

/-- A silence with its timer at `ch.timer - k`. -/
def silencePath (ch : ChannelInfo) (k : Nat) : ChannelInfo := { ch with timer := ch.timer - k }

theorem chTick_silencePath (h : silenceEnd ch.state = some next) (k : Nat) :
    chTick cfg audio c (silencePath ch k) = silenceTick (silencePath ch k) (afterSilence next) :=
  chTick_silenceEnd (ch := silencePath ch k) h

theorem silence_quietRun (h : silenceEnd ch.state = some next) :
    QuietRun cfg audio c ch (silencePath ch) (fun _ => 0) ch.timer := by
  refine .of_ticks rfl fun k hk _ => ?_
  have htimer : (silencePath ch k).timer = ch.timer - k := rfl
  rw [chTick_silencePath h]
  obtain ⟨-, e⟩ | ⟨hzero, -⟩ := silenceTick_cases (silencePath ch k) (afterSilence next)
  · rw [e, htimer, Nat.sub_sub]
    rfl
  · omega

theorem chTick_silence_ends (h : silenceEnd ch.state = some next) :
    chTick cfg audio c (silencePath ch ch.timer) = tickOf (afterSilence next (silencePath ch ch.timer)) 0 := by
  have htimer : (silencePath ch ch.timer).timer = ch.timer - ch.timer := rfl
  rw [chTick_silencePath h]
  obtain ⟨hpos, -⟩ | ⟨-, e⟩ := silenceTick_cases (silencePath ch ch.timer) (afterSilence next)
  · omega
  · exact e

end

/-! ## The obligations about tones and silences -/

/-- Settles O21: the dial tone's run, for any number of ticks and one more for the last sample. -/
theorem dialToneNeverEndsByItself : Obligations.DialToneNeverEndsByItself := by
  intro cfg audio c ch n h
  have hrun (m : Nat) : QuietRun cfg audio c ch _ _ m := dialTone_quietRun h m
  have hchan := (hrun n).chan n le_rfl
  refine ⟨hchan, ?_, ?_, (hrun n).quiet⟩
  · rw [hchan]
    exact h
  · rw [hchan]
    exact (hrun (n + 1)).sample n n.lt_succ_self

/-- Settles O22: the burst's run to tick `timer + z`, then the tick that ends it. -/
theorem toneBurstLastsTimerPlusDeferral : Obligations.ToneBurstLastsTimerPlusDeferral := by
  intro cfg audio c ch next nextTimer z hend hout hin
  obtain ⟨hchan, -, hquiet⟩ := burst_quietRun hend hout
  have hlast := hchan (ch.timer + z) le_rfl
  rw [sampleAt_of_burstPath hend hlast] at hin
  have htick := chTick_burst_ends (audio := audio) (c := c) hend (Nat.le_add_right _ _) hin
  refine ⟨fun k hk => ⟨hchan k hk, ?_⟩, ?_, ?_⟩
  · rw [hchan k hk]
    exact sampleAt_of_burstPath hend (hchan k hk)
  · rw [chanAfter_succ, hlast, htick]
    rfl
  · rw [eventsWithin_succ, hquiet, eventsAt, hlast, htick]
    rfl

/-- Settles O23: the silence's run to tick `timer`, then the state's own transition. -/
theorem silenceLastsTimerPlusOne : Obligations.SilenceLastsTimerPlusOne := by
  intro cfg audio c ch next h
  have hrun : QuietRun cfg audio c ch _ _ _ := silence_quietRun h
  obtain ⟨hchan, hsample, -⟩ := hrun
  have hlast := hchan ch.timer le_rfl
  have htick := chTick_silence_ends (cfg := cfg) (audio := audio) (c := c) h
  refine ⟨fun k hk => ⟨hchan k hk, ?_⟩, fun hother => ?_, fun hbusy => ?_⟩
  · obtain hlt | rfl := hk.lt_or_eq
    · exact hsample k hlt
    · rw [sampleAt, hlast, htick]
      rfl
  · rw [chanAfter_succ, hlast, htick]
    simp [tickOf, afterSilence, silencePath, hother]
  · rw [chanAfter_succ, hlast, htick]
    simp [tickOf, afterSilence, silencePath, rewound, hbusy]

end Sys2Proof.Machine
end

section
/-! SUPPORT. Raw-sample playback, once and looped: the index as a function of the tick (41_channel_fsm.md R142 to R145; 20_memory.md
R64). -/

namespace Sys2Proof.Machine

section
variable {cfg : Cfg} {audio : Cells 16} {c : ChanId} {ch : ChannelInfo} {h : Handle}

/-! ## The ticks of playback -/

theorem chTick_sendAudio (hst : ch.state = .sendAudio) :
    chTick cfg audio c ch = tickOf { ch with aidx := 0, state := .sendAudioWait } 0 := by
  simp only [chTick, hst, tickSendAudio]

theorem chTick_sendAudioLoop (hst : ch.state = .sendAudioLoop) :
    chTick cfg audio c ch = tickOf { ch with aidx := 0, state := .sendAudioLoopWait } 0 := by
  simp only [chTick, hst, tickSendAudioLoop]

theorem chTick_sendAudioWait_reads (hst : ch.state = .sendAudioWait) (hbuf : ch.abuf = some h) (hidx : ch.aidx < ch.alen) :
    chTick cfg audio c ch = tickOf { ch with aidx := ch.aidx + 1 } (Cells.read audio (handleIndex h ch.aidx)) := by
  simp only [chTick, hst, tickSendAudioWait, hbuf, readAudio, if_neg (Nat.not_le.2 hidx)]

theorem chTick_sendAudioWait_ends (hst : ch.state = .sendAudioWait) (hidx : ch.alen ≤ ch.aidx) :
    chTick cfg audio c ch = { ch := { ch with state := .idle }, sample := 0, events := complete c ch } := by
  simp only [chTick, hst, tickSendAudioWait, if_pos hidx]

/-- The index goes on modulo the length. -/
theorem chTick_sendAudioLoopWait (hst : ch.state = .sendAudioLoopWait) (hbuf : ch.abuf = some h) (hidx : ch.aidx < ch.alen) :
    chTick cfg audio c ch =
      tickOf { ch with aidx := (ch.aidx + 1) % ch.alen } (Cells.read audio (handleIndex h ch.aidx)) := by
  have hwrap : (if ch.alen ≤ ch.aidx + 1 then 0 else ch.aidx + 1) = (ch.aidx + 1) % ch.alen := by
    split
    next hle => rw [show ch.aidx + 1 = ch.alen from Nat.le_antisymm hidx hle, Nat.mod_self]
    next hlt => exact (Nat.mod_eq_of_lt (Nat.not_le.1 hlt)).symm
  simp only [chTick, hst, tickSendAudioLoopWait, hbuf, readAudio, hwrap]

/-! ## The runs -/

/-- Playback tick by tick: the head, then the state `wait` with the index `idx k` after `k` samples. -/
def playPath (ch : ChannelInfo) (wait : ChState) (idx : Nat → Nat) : Nat → ChannelInfo
  | 0 => ch
  | k + 1 => { ch with aidx := idx k, state := wait }

/-- The samples of playback: the head's 0, then the elements the index selects. -/
def playSample (audio : Cells 16) (h : Handle) (idx : Nat → Nat) : Nat → Sample
  | 0 => 0
  | k + 1 => Cells.read audio (handleIndex h (idx k))

theorem sendAudio_quietRun (hst : ch.state = .sendAudio) (hbuf : ch.abuf = some h) :
    QuietRun cfg audio c ch (playPath ch .sendAudioWait id) (playSample audio h id) (ch.alen + 1) := by
  refine .of_ticks rfl fun k hk _ => ?_
  cases k with
  | zero => exact chTick_sendAudio hst
  | succ k =>
    exact chTick_sendAudioWait_reads (ch := playPath ch .sendAudioWait id (k + 1)) rfl hbuf (Nat.lt_of_succ_lt_succ hk)

theorem sendAudioLoop_quietRun (hst : ch.state = .sendAudioLoop) (hbuf : ch.abuf = some h) (hlen : 1 ≤ ch.alen) (n : Nat) :
    QuietRun cfg audio c ch (playPath ch .sendAudioLoopWait (· % ch.alen)) (playSample audio h (· % ch.alen)) n := by
  refine .of_ticks rfl fun k _ _ => ?_
  cases k with
  | zero =>
    rw [playPath, chTick_sendAudioLoop hst, playPath, Nat.zero_mod]
    rfl
  | succ k =>
    have hidx : k % ch.alen < ch.alen := Nat.mod_lt k hlen
    rw [chTick_sendAudioLoopWait (ch := playPath ch .sendAudioLoopWait (· % ch.alen) (k + 1)) rfl hbuf hidx]
    simp only [playPath, playSample, Nat.mod_add_mod]

end

/-! ## The obligations about playback -/

/-- Settles O27: the loop's run, one tick past the sample asked for. -/
theorem loopWrapsExactlyAtTheLength : Obligations.LoopWrapsExactlyAtTheLength := by
  intro cfg audio c ch h n hst hbuf hlen
  have hrun (m : Nat) : QuietRun cfg audio c ch _ _ m := sendAudioLoop_quietRun hst hbuf hlen m
  obtain ⟨hchan, hsample, -⟩ := hrun (n + 2)
  exact ⟨hsample 0 (by omega), hsample (n + 1) (by omega), hchan (n + 1) (by omega), (hrun n).quiet⟩

/-- Settles O26: the run to the end of the buffer, the tick that completes, and the channel at rest. -/
theorem playbackPlaysTheBufferOnce : Obligations.PlaybackPlaysTheBufferOnce := by
  refine ⟨fun cfg audio c ch hidle => chTick_idle hidle, fun cfg audio c ch h hst hbuf => ?_⟩
  have hrun : QuietRun cfg audio c ch _ _ _ := sendAudio_quietRun hst hbuf
  obtain ⟨hchan, hsample, hquiet⟩ := hrun
  have hlast := hchan (ch.alen + 1) le_rfl
  have htick := chTick_sendAudioWait_ends (cfg := cfg) (audio := audio) (c := c)
    (ch := playPath ch .sendAudioWait id (ch.alen + 1)) rfl le_rfl
  have hevents : eventsAt cfg audio c (ch.alen + 1) ch = complete c ch := by
    rw [eventsAt, hlast, htick]
    rfl
  have hrest (k : Nat) (hk : ch.alen + 2 ≤ k) :
      chanAfter cfg audio c k ch = { ch with aidx := ch.alen, state := .idle } := by
    obtain ⟨m, rfl⟩ := Nat.exists_eq_add_of_le hk
    have hend : chanAfter cfg audio c (ch.alen + 2) ch = { ch with aidx := ch.alen, state := .idle } := by
      rw [chanAfter_succ, hlast, htick]
      rfl
    rw [chanAfter_add, hend]
    exact (idle_quietRun rfl m).chan m le_rfl
  refine ⟨hsample 0 (Nat.succ_pos _), fun k hk => hsample (k + 1) (Nat.succ_lt_succ hk), ?_, hquiet,
    fun cb hcb => hevents.trans (complete_of_callback hcb), fun hcb => hevents.trans (complete_of_no_callback hcb),
    fun k hpos hk => ?_, fun k hk => ⟨hrest k hk, ?_, ?_⟩⟩
  · rw [sampleAt, hlast, htick]
  · obtain ⟨m, rfl⟩ := Nat.exists_eq_add_of_le' hpos
    rw [hchan (m + 1) hk]
    rfl
  · rw [sampleAt, hrest k hk]
    rfl
  · rw [eventsAt, hrest k hk]
    rfl

end Sys2Proof.Machine
end

section
/-! SUPPORT. The head states: what one tick loads before a tone sounds (41_channel_fsm.md R122, R127 to R140). -/

namespace Sys2Proof.Machine

/-! ## Durations (R122) -/

theorem ms2ticks_of_nonneg {ms : Q} (h : 0 ≤ ms) : (ms2ticks ms : Int) = (ms * 8000 / 1000).floor := by
  have hfloor : 0 ≤ (ms * 8000 / 1000).floor := Rat.le_floor_iff.2 (by push_cast; positivity)
  exact Int.toNat_of_nonneg hfloor

theorem ms2ticks_natCast (n : Nat) : ms2ticks n = 8 * n := by
  have hexact : (n : Q) * 8000 / 1000 = ((8 * n : Nat) : Int) := by push_cast; ring
  have hticks := ms2ticks_of_nonneg (ms := n) (Nat.cast_nonneg n)
  rw [hexact, Rat.floor_intCast] at hticks
  exact Int.ofNat_inj.1 hticks

/-! ## Call-progress heads -/

/-- Settles O20: the four head rules, each the tick of its state. -/
theorem callProgressHeadsLoadTheTone : Obligations.CallProgressHeadsLoadTheTone := by
  refine ⟨fun ms => ms2ticks_of_nonneg, ms2ticks_natCast, fun cfg audio c ch => ⟨?dial, ?busy, ?congestion, ?ringing⟩⟩
  case dial => intro h; simp only [chTick, h, tickGenDialTone, loadPair]
  case busy => intro h; simp only [chTick, h, tickGenBusyTone, busyHead, loadPair]
  case congestion => intro h; simp only [chTick, h, tickGenCongestionTone, busyHead, loadPair]
  case ringing => intro h; simp only [chTick, h, tickGenRingingTone, loadPair]

/-! ## Outpulsing heads (R136, R139) -/

section
variable {cfg : Cfg} {c : ChanId} {ch : ChannelInfo} {load : DigitCode → ChannelInfo → ChannelInfo} {d : DigitCode} {p : FreqPair}

theorem sendHead_empty (h : ch.dlen = 0) :
    sendHead cfg c ch load =
      { ch := { ch with state := .idle }, sample := 0, events := if cfg.emptyAbortCallback then complete c ch else [] } := by
  rw [sendHead, if_pos h]

theorem sendHead_done (hne : 0 < ch.dlen) (h : ch.dlen ≤ ch.didx) :
    sendHead cfg c ch load = { ch := { ch with state := .idle }, sample := 0, events := complete c ch } := by
  rw [sendHead, if_neg hne.ne', if_pos h]

theorem sendHead_next (h : ch.didx < ch.dlen) (hd : ch.digits[ch.didx]? = some d) :
    sendHead cfg c ch load = tickOf (load d { ch with didx := ch.didx + 1 }) 0 := by
  rw [sendHead, if_neg (Nat.ne_zero_of_lt h), if_neg (Nat.not_le.2 h), List.getD_eq_getElem?_getD, hd]
  rfl

theorem mfPairOf_of_row (h : cfg.mfPair[d.toNat]? = some p) : mfPairOf cfg d = p := by
  rw [mfPairOf, List.getD_eq_getElem?_getD, h]
  rfl

theorem dtmfPairOf_of_row (h : cfg.dtmfPair[d.toNat]? = some p) : dtmfPairOf cfg d = p := by
  rw [dtmfPairOf, List.getD_eq_getElem?_getD, h]
  rfl

/-- The terminators' codes are a range (R87). -/
theorem isTerminator_iff (d : DigitCode) : (d = 0xB ∨ d = 0xC ∨ d = 0xD ∨ d = 0xE) ↔ 0xB ≤ d.toNat ∧ d.toNat ≤ 0xE := by
  revert d; decide

theorem mfToneMs_eq (cfg : Cfg) (d : DigitCode) :
    mfToneMs cfg d =
      if d = 0xA then cfg.mfKpMs else if 0xB ≤ d.toNat ∧ d.toNat ≤ 0xE then cfg.mfStMs else cfg.mfActiveMs := by
  simp only [mfToneMs, isTerminator_iff]

end

/-- Settles O25: `sendHead`'s three cases, the last with the digit's row and tone time. -/
theorem outpulsingHeadsLoadOrFinish : Obligations.OutpulsingHeadsLoadOrFinish := by
  intro cfg audio c ch d p
  have hmf (h : ch.state = .sendMf) : chTick cfg audio c ch = sendHead cfg c ch (loadMfDigit cfg) := by
    simp only [chTick, h, tickSendMf]
  have hdtmf (h : ch.state = .sendDtmf) : chTick cfg audio c ch = sendHead cfg c ch (loadDtmfDigit cfg) := by
    simp only [chTick, h, tickSendDtmf]
  refine ⟨fun cb => complete_of_callback, complete_of_no_callback, ?finish, ?mf, ?dtmf⟩
  case finish =>
    rintro (h | h)
    · rw [hmf h]
      exact ⟨sendHead_empty, sendHead_done⟩
    · rw [hdtmf h]
      exact ⟨sendHead_empty, sendHead_done⟩
  case mf =>
    intro h hidx hd hp
    rw [hmf h, sendHead_next hidx hd, loadMfDigit, mfPairOf_of_row hp, mfToneMs_eq]
    simp only [loadPair, Nat.cast_ite]
  case dtmf =>
    intro h hidx hd hp
    rw [hdtmf h, sendHead_next hidx hd, loadDtmfDigit, dtmfPairOf_of_row hp]
    rfl

end Sys2Proof.Machine
end

section
/-! SUPPORT. The multiplexer, one stereo frame at a time: what `TS_REQUEST_BLOCK` leaves in the machine, with every sample it wrote
(20_memory.md R62, R67; 42_tone_engine.md R179, R180). -/

namespace Sys2Proof.Machine

/-! ## Positions of a half -/

theorem outIndex_inj {cfg : Cfg} {h : Half} {p q : Nat} : outIndex cfg h p = outIndex cfg h q ↔ p = q := Nat.add_left_cancel_iff

theorem ownerOf_even (n : Nat) : ownerOf (2 * n) = .left := if_pos (Nat.mul_mod_right 2 n)

theorem ownerOf_odd (n : Nat) : ownerOf (2 * n + 1) = .right := if_neg (by omega)

/-- An even position ticks the left channel and stores its sample (R62, R179). -/
theorem tickPosition_even (h : Half) (n : Nat) (s : State) :
    tickPosition h (2 * n) s =
      { s with
        te := { s.te with
          ch0 := (chTick s.cfg s.env.audio .left s.te.ch0).ch
          out := Cells.write s.te.out (outIndex s.cfg h (2 * n)) (chTick s.cfg s.env.audio .left s.te.ch0).sample }
        log := s.log ++ (chTick s.cfg s.env.audio .left s.te.ch0).events } := by
  rw [tickPosition, ownerOf_even]
  rfl

/-- An odd position ticks the right channel and stores its sample (R62, R179). -/
theorem tickPosition_odd (h : Half) (n : Nat) (s : State) :
    tickPosition h (2 * n + 1) s =
      { s with
        te := { s.te with
          ch1 := (chTick s.cfg s.env.audio .right s.te.ch1).ch
          out := Cells.write s.te.out (outIndex s.cfg h (2 * n + 1)) (chTick s.cfg s.env.audio .right s.te.ch1).sample }
        log := s.log ++ (chTick s.cfg s.env.audio .right s.te.ch1).events } := by
  rw [tickPosition, ownerOf_odd]
  rfl

theorem fillFrom_succ (h : Half) (n p : Nat) (s : State) :
    fillFrom h (n + 1) p s = tickPosition h (p + n) (fillFrom h n p s) := by
  induction n generalizing p s with
  | zero => rfl
  | succ n ih =>
    have hp : p + 1 + n = p + (n + 1) := by omega
    rw [fillFrom, ih, hp]
    rfl

/-! ## The machine after `n` stereo frames -/

/-- `OUT` after `n` stereo frames of a half: each frame writes the left channel's sample, then the right's. -/
def outAfter (cfg : Cfg) (audio : Cells 16) (h : Half) (te : ToneEngine) : Nat → Cells 16
  | 0 => te.out
  | n + 1 =>
    Cells.write (Cells.write (outAfter cfg audio h te n) (outIndex cfg h (2 * n)) (sampleAt cfg audio .left n te.ch0))
      (outIndex cfg h (2 * n + 1)) (sampleAt cfg audio .right n te.ch1)

/-- The machine after `n` stereo frames of a half: both channels ticked `n` times as if alone (R180). -/
def blockAfter (h : Half) (n : Nat) (s : State) : State :=
  { s with
    te := { ch0 := chanAfter s.cfg s.env.audio .left n s.te.ch0, ch1 := chanAfter s.cfg s.env.audio .right n s.te.ch1,
            out := outAfter s.cfg s.env.audio h s.te n },
    log := s.log ++ blockEvents s.cfg s.env.audio n s.te }

theorem blockEvents_succ (cfg : Cfg) (audio : Cells 16) (n : Nat) (te : ToneEngine) :
    blockEvents cfg audio (n + 1) te =
      blockEvents cfg audio n te ++ (eventsAt cfg audio .left n te.ch0 ++ eventsAt cfg audio .right n te.ch1) := by
  simp [blockEvents, List.range_succ]

theorem blockAfter_zero (h : Half) (s : State) : blockAfter h 0 s = s := by
  simp [blockAfter, blockEvents, chanAfter, outAfter]

/-- One stereo frame more is an even position and the odd one after it. -/
theorem blockAfter_succ (h : Half) (n : Nat) (s : State) :
    blockAfter h (n + 1) s = tickPosition h (2 * n + 1) (tickPosition h (2 * n) (blockAfter h n s)) := by
  rw [tickPosition_odd, tickPosition_even]
  simp only [blockAfter, chanAfter_succ, blockEvents_succ, outAfter, List.append_assoc]
  rfl

theorem fillFrom_eq_blockAfter (h : Half) (n : Nat) (s : State) : fillFrom h (2 * n) 0 s = blockAfter h n s := by
  induction n with
  | zero => exact (blockAfter_zero h s).symm
  | succ n ih => rw [Nat.mul_succ, fillFrom_succ, fillFrom_succ, ih, blockAfter_succ, Nat.zero_add, Nat.zero_add]

/-! ## What `OUT` reads as after `n` stereo frames -/

section
variable {cfg : Cfg} {audio : Cells 16} {h : Half} {te : ToneEngine}

theorem read_outAfter_outside {n a : Nat} (ha : ∀ p, p < 2 * n → a ≠ outIndex cfg h p) :
    Cells.read (outAfter cfg audio h te n) a = Cells.read te.out a := by
  induction n with
  | zero => rfl
  | succ n ih =>
    rw [outAfter, Cells.read_write_other _ _ _ _ (ha _ (by omega)), Cells.read_write_other _ _ _ _ (ha _ (by omega))]
    exact ih fun p hp => ha p (by omega)

/-- A later stereo frame leaves the positions of the frames before it as they are. -/
theorem read_outAfter_succ_before {n p : Nat} (hp : p < 2 * n) :
    Cells.read (outAfter cfg audio h te (n + 1)) (outIndex cfg h p) =
      Cells.read (outAfter cfg audio h te n) (outIndex cfg h p) := by
  have hne {q : Nat} (hq : p < q) : outIndex cfg h p ≠ outIndex cfg h q := fun e => hq.ne (outIndex_inj.1 e)
  rw [outAfter, Cells.read_write_other _ _ _ _ (hne (by omega)), Cells.read_write_other _ _ _ _ (hne hp)]

/-- Stereo frame `j` holds the samples of the two channels' tick number `j` (R179, R180). -/
theorem read_outAfter_frame {n j : Nat} (hj : j < n) :
    Cells.read (outAfter cfg audio h te n) (outIndex cfg h (2 * j)) = sampleAt cfg audio .left j te.ch0 ∧
    Cells.read (outAfter cfg audio h te n) (outIndex cfg h (2 * j + 1)) = sampleAt cfg audio .right j te.ch1 := by
  induction n with
  | zero => exact absurd hj j.not_lt_zero
  | succ n ih =>
    obtain hlt | rfl := Nat.lt_succ_iff_lt_or_eq.1 hj
    · rw [read_outAfter_succ_before (by omega), read_outAfter_succ_before (by omega)]
      exact ih hlt
    · have hne : outIndex cfg h (2 * j) ≠ outIndex cfg h (2 * j + 1) := fun e => absurd (outIndex_inj.1 e) (by omega)
      rw [outAfter]
      exact ⟨by rw [Cells.read_write_other _ _ _ _ hne, Cells.read_write_same], Cells.read_write_same _ _ _⟩

end

/-! ## The event -/

theorem hardwareEvent_of_ctx {signal : Ctx} {s : State} (hctx : s.ctx = signal) (k : Host.Outcome State Fault Refusal) :
    hardwareEvent signal s k = k := if_pos hctx

theorem withHalf_of_half {half : BitVec 4} {h : Half} (hhalf : halfOf half = some h)
    (k : Half → Host.Outcome State Fault Refusal) : withHalf half k = k h := by
  rw [withHalf, hhalf]

theorem withHalf_of_bad {half : BitVec 4} (hbad : 2 ≤ half.toNat) (k : Half → Host.Outcome State Fault Refusal) :
    withHalf half k = .refused .badHalfIndex := by
  rcases halfOf_cases half with ⟨rfl, -⟩ | ⟨rfl, -⟩ | ⟨-, hnone⟩
  · exact absurd hbad (by decide)
  · exact absurd hbad (by decide)
  · rw [withHalf, hnone]

/-- `TS_REQUEST_BLOCK` on a legal half is `BLOCK_FRAMES` stereo frames (R179). -/
theorem exec_tsRequestBlock {s : State} {half : BitVec 4} {h : Half} (hctx : s.ctx = .outSignal)
    (hhalf : halfOf half = some h) :
    exec (.tsRequestBlock half) s = .next ((blockAfter h s.cfg.blockFrames s).respond .nothing) := by
  rw [exec, execTsRequestBlock, hardwareEvent_of_ctx hctx, withHalf_of_half hhalf, fillFrom_eq_blockAfter]

theorem exec_tsRequestBlock_badHalf {s : State} {half : BitVec 4} (hctx : s.ctx = .outSignal) (hbad : 2 ≤ half.toNat) :
    exec (.tsRequestBlock half) s = .refused .badHalfIndex := by
  rw [exec, execTsRequestBlock, hardwareEvent_of_ctx hctx, withHalf_of_bad hbad]

/-- Settles O19: the half is filled frame by frame, and `OUT` is read back by induction on the frames. -/
theorem requestBlockInterleavesTheChannels : Obligations.RequestBlockInterleavesTheChannels := by
  refine ⟨fun half => Laws.opOf_headerWord _ _ _, fun s half => exec_tsRequestBlock_badHalf, fun s half h hctx hhalf => ?_⟩
  refine ⟨outAfter s.cfg s.env.audio h s.te s.cfg.blockFrames, ⟨none, exec_tsRequestBlock hctx hhalf⟩, ?_, ?_⟩
  · exact fun j hj => read_outAfter_frame hj
  · exact fun a ha => read_outAfter_outside ha

end Sys2Proof.Machine
end

section
/-! SUPPORT. The tone-engine commands: what an admitted command does on the owned channel its id names, and that one that fails
changes nothing (42_tone_engine.md R170 to R178, R182). -/

namespace Sys2Proof.Machine

section
variable {i : Instr} {s t : State} {id : BitVec 4} {c : ChanId} {v : Ret} {kind : ErrorKind}
  {k : ChanId → Host.Outcome State Fault Refusal}

/-! ## Admission and the channel operand -/

theorem toneCommand_of_mayCommand (hmay : mayCommand s) (k : Host.Outcome State Fault Refusal) : toneCommand s k = k := by
  rcases hmay with h | h <;> simp only [toneCommand, h]

theorem withChannel_of_owned (howned : (s.te.ch c).owned = true) : withChannel s c.id k = k c := by
  rw [withChannel, (validId_eq_some s c.id c).2 ⟨rfl, howned⟩]

theorem withChannel_of_notOwned (hno : notOwned s id) :
    withChannel s id k = .next (s.reject (.bool false) .invalidChannel) := by
  rcases withChannel_cases s id k with ⟨c, hid, howned, -⟩ | ⟨-, e⟩
  · exact absurd (hno c hid.symm) (by simp [howned])
  · exact e

/-! ## Returning -/

/-- A command that goes through with `v` returns it. -/
theorem Returns.of_respond (h : exec i s = .next (t.respond v)) : Returns i s v t := ⟨none, h⟩

/-- A command that fails with `v` returns it and changes nothing. -/
theorem Returns.of_reject (h : exec i s = .next (s.reject v kind)) : Returns i s v s := ⟨some kind, h⟩

/-- An admitted command on an owned channel runs its body there. -/
theorem exec_of_owned (hexec : exec i s = toneCommand s (withChannel s c.id k)) (hmay : mayCommand s)
    (howned : (s.te.ch c).owned = true) : exec i s = k c := by
  rw [hexec, toneCommand_of_mayCommand hmay, withChannel_of_owned howned]

/-- An admitted command on an owned channel returns what its body responds with. -/
theorem returns_of_owned (hexec : exec i s = toneCommand s (withChannel s c.id k)) (hmay : mayCommand s)
    (howned : (s.te.ch c).owned = true) (hbody : k c = .next (t.respond v)) : Returns i s v t :=
  .of_respond ((exec_of_owned hexec hmay howned).trans hbody)

/-- An admitted command on an owned channel whose body rejects its arguments changes nothing. -/
theorem returns_of_badArgument (hexec : exec i s = toneCommand s (withChannel s c.id k)) (hmay : mayCommand s)
    (howned : (s.te.ch c).owned = true) (hbody : k c = .next (s.reject v .invalidArgument)) : Returns i s v s :=
  .of_reject ((exec_of_owned hexec hmay howned).trans hbody)

/-- An admitted command whose id names no owned channel returns 0 and changes nothing (R170). -/
theorem returns_of_notOwned (hexec : exec i s = toneCommand s (withChannel s id k)) (hmay : mayCommand s)
    (hno : notOwned s id) : Returns i s (.bool false) s :=
  .of_reject (by rw [hexec, toneCommand_of_mayCommand hmay, withChannel_of_notOwned hno])

end

/-- Settles O14: each of the seven commands resolves its id before anything else. -/
theorem invalidIdFailsEveryCommand : Obligations.InvalidIdFailsEveryCommand := by
  intro s id hmay hno
  refine ⟨returns_of_notOwned rfl hmay hno, returns_of_notOwned rfl hmay hno, fun kind => returns_of_notOwned rfl hmay hno,
    fun str cb => ⟨returns_of_notOwned rfl hmay hno, returns_of_notOwned rfl hmay hno⟩, fun buf len => ?_⟩
  exact ⟨returns_of_notOwned rfl hmay hno, fun cb => returns_of_notOwned rfl hmay hno⟩

/-! ## Claiming, releasing, stopping -/

/-- Settles O6: the channels are tried in order of their ids. -/
theorem seizeClaimsTheLowestFreeChannel : Obligations.SeizeClaimsTheLowestFreeChannel := by
  refine ⟨Laws.opOf_headerWord _ _ _, fun s hmay => ?_⟩
  have hexec := toneCommand_of_mayCommand hmay
  refine ⟨fun hfree => ?_, fun howned hfree => ?_, fun howned howned' => ?_⟩
  · exact .of_respond ((hexec _).trans (if_pos hfree))
  · exact .of_respond ((hexec _).trans ((if_neg (by simp [howned])).trans (if_pos hfree)))
  · exact .of_reject ((hexec _).trans ((if_neg (by simp [howned])).trans (if_neg (by simp [howned']))))

/-- Settles O7. -/
theorem releaseFreesTheChannel : Obligations.ReleaseFreesTheChannel :=
  ⟨fun _ => Laws.opOf_headerWord _ _ _, fun _ hmay =>
    ⟨fun _ howned => returns_of_owned rfl hmay howned rfl, fun _ => returns_of_notOwned rfl hmay⟩⟩

/-- Settles O13. -/
theorem stopForcesIdle : Obligations.StopForcesIdle :=
  ⟨fun _ => Laws.opOf_headerWord _ _ _, fun _ hmay =>
    ⟨fun _ howned => returns_of_owned rfl hmay howned rfl, fun _ => returns_of_notOwned rfl hmay⟩⟩

section
variable {s : State} {c : ChanId}

/-! ## Call-progress tones -/

theorem returns_tsCpt_head {kind : BitVec 4} {head : ChState} (hmay : mayCommand s) (howned : (s.te.ch c).owned = true)
    (hhead : cptHead kind = some head) :
    Returns (.tsCpt c.id kind) s (.bool true) { s with te := s.te.setCh c { s.te.ch c with state := head } } := by
  refine returns_of_owned rfl hmay howned ?_
  rw [hhead]
  rfl

theorem returns_tsCpt_badKind {kind : BitVec 4} (hmay : mayCommand s) (howned : (s.te.ch c).owned = true)
    (hkind : cptHead kind = none) : Returns (.tsCpt c.id kind) s (.bool false) s := by
  refine returns_of_badArgument rfl hmay howned ?_
  rw [hkind]

theorem cptHead_of_four_le {kind : BitVec 4} (h : 4 ≤ kind.toNat) : cptHead kind = none := by
  revert kind; decide

end

/-- Settles O8: the kinds are `cptHead`'s. -/
theorem cptSetsTheHeadState : Obligations.CptSetsTheHeadState := by
  refine ⟨fun _ _ => Laws.opOf_headerWord _ _ _, fun s hmay => ⟨fun c howned => ?_, fun _ _ => returns_of_notOwned rfl hmay⟩⟩
  exact ⟨returns_tsCpt_head hmay howned rfl, returns_tsCpt_head hmay howned rfl, returns_tsCpt_head hmay howned rfl,
    returns_tsCpt_head hmay howned rfl, fun kind h => returns_tsCpt_badKind hmay howned (cptHead_of_four_le h)⟩

/-! ## Outpulsing -/

section
variable {i : Instr} {s : State} {c : ChanId} {mode : DigitMode} {head : ChState} {str cb : Word32}

theorem returns_sendDigits_null (hexec : exec i s = sendDigits mode head c.id str cb s) (hmay : mayCommand s)
    (howned : (s.te.ch c).owned = true) (hnull : str = 0 ∨ cb = 0) : Returns i s (.bool false) s := by
  refine returns_of_badArgument hexec hmay howned ?_
  rcases hnull with rfl | rfl
  · rw [handleOf_zero]
  · rw [handleOf_zero]
    cases handleOf str <;> rfl

theorem returns_sendDigits_bad (hexec : exec i s = sendDigits mode head c.id str cb s) (hmay : mayCommand s)
    (howned : (s.te.ch c).owned = true) (hstr : str ≠ 0) (hcb : cb ≠ 0)
    (hnone : digitEncode s.cfg mode (readStr s.env.str str) = none) : Returns i s (.bool false) s := by
  refine returns_of_badArgument hexec hmay howned ?_
  simp only [handleOf_pos hstr, handleOf_pos hcb, hnone]

theorem returns_sendDigits {codes : List DigitCode} (hexec : exec i s = sendDigits mode head c.id str cb s)
    (hmay : mayCommand s) (howned : (s.te.ch c).owned = true) (hstr : str ≠ 0) (hcb : cb ≠ 0)
    (hcodes : digitEncode s.cfg mode (readStr s.env.str str) = some codes) :
    Returns i s (.bool true) { s with te := s.te.setCh c (installDigits (s.te.ch c) codes cb head) } := by
  refine returns_of_owned hexec hmay howned ?_
  simp only [handleOf_pos hstr, handleOf_pos hcb, hcodes]
  rfl

/-- Characters that all encode make a string that encodes (R82). -/
theorem exists_encodeChars {cs : List Ascii} (h : ∀ c ∈ cs, (encodeChar mode c).isSome = true) :
    ∃ codes, encodeChars mode cs = some codes := by
  induction cs with
  | nil => exact ⟨[], rfl⟩
  | cons c cs ih =>
    obtain ⟨d, hd⟩ := Option.isSome_iff_exists.1 (h c List.mem_cons_self)
    obtain ⟨ds, hds⟩ := ih fun c hc => h c (List.mem_cons_of_mem _ hc)
    exact ⟨d :: ds, by rw [encodeChars, hd, hds]⟩

/-- DTMF admits every character of the table (R81, R175). -/
theorem exists_digitEncode_dtmf {cfg : Cfg} {cs : List Ascii} (hfit : cs.length ≤ cfg.maxDigits)
    (h : ∀ c ∈ cs, (digitCode c).isSome = true) : ∃ codes, digitEncode cfg .dtmf cs = some codes := by
  obtain ⟨codes, hcodes⟩ := exists_encodeChars (mode := .dtmf) fun c hc => by rw [encodeChar_dtmf]; exact h c hc
  exact ⟨codes, digitEncode_eq_some_iff.2 ⟨hfit, hcodes⟩⟩

end

/-- Settles O9. -/
theorem sendMfInstallsTheDigits : Obligations.SendMfInstallsTheDigits := by
  refine ⟨fun _ _ _ => Laws.opOf_headerWord _ _ _, fun s str cb hmay => ⟨fun c howned => ?_, fun _ => returns_of_notOwned rfl hmay⟩⟩
  exact ⟨returns_sendDigits_null rfl hmay howned, returns_sendDigits_bad rfl hmay howned,
    fun _ => returns_sendDigits rfl hmay howned⟩

/-- Settles O10. -/
theorem sendDtmfInstallsTheDigits : Obligations.SendDtmfInstallsTheDigits := by
  refine ⟨fun _ _ _ => Laws.opOf_headerWord _ _ _, fun _ _ => exists_digitEncode_dtmf,
    fun s str cb hmay => ⟨fun c howned => ?_, fun _ => returns_of_notOwned rfl hmay⟩⟩
  exact ⟨returns_sendDigits_null rfl hmay howned, returns_sendDigits_bad rfl hmay howned,
    fun _ => returns_sendDigits rfl hmay howned⟩

/-! ## Playback -/

/-- Settles O11: the callback operand is installed as `handleOf` reads it. -/
theorem sendInstallsTheBuffer : Obligations.SendInstallsTheBuffer := by
  refine ⟨fun _ _ _ _ => Laws.opOf_headerWord _ _ _,
    fun s buf len cb hmay => ⟨fun c howned => ⟨?_, fun hbuf => ?_⟩, fun _ => returns_of_notOwned rfl hmay⟩⟩
  · rintro rfl
    exact returns_of_badArgument rfl hmay howned rfl
  · refine returns_of_owned rfl hmay howned ?_
    rw [handleOf_pos hbuf]
    rfl

/-- Settles O12. -/
theorem sendLoopInstallsTheBuffer : Obligations.SendLoopInstallsTheBuffer := by
  refine ⟨fun _ _ _ => Laws.opOf_headerWord _ _ _,
    fun s buf len hmay => ⟨fun c howned => ⟨?_, fun hbuf hlen => ?_⟩, fun _ => returns_of_notOwned rfl hmay⟩⟩
  · intro hbad
    refine returns_of_badArgument rfl hmay howned ?_
    rcases hbad with rfl | rfl
    · rw [handleOf_zero]
    · cases handleOf buf <;> rfl
  · refine returns_of_owned rfl hmay howned ?_
    simp only [handleOf_pos hbuf, if_neg hlen]
    rfl

/-! ## Failing -/

/-- A command that writes a channel returns neither 0 nor none. -/
theorem ChannelWrite.ret_ne {s : State} {c : ChanId} {i : Instr} {v : ChannelInfo} {r : Ret} (hw : ChannelWrite s c i v r) :
    ¬ (r = .bool false ∨ r = .noChannel) := by
  cases hw <;> nofun

/-- Settles O15: of the ways an instruction completes, only the synchronous error returns a failure. -/
theorem failedToneCommandChangesNothing : Obligations.FailedToneCommandChangesNothing := by
  intro i s t _ h hret
  cases exec_completes h with
  | rejected => rfl
  | channel hw => exact absurd hret hw.ret_ne
  | fatal | block | seized | released | skipped | frame => exact absurd hret nofun

end Sys2Proof.Machine
end

section
/-! SUPPORT. The filter bank's samples: a frame's own extremes and offset, the constant frame in exact arithmetic
(43_goertzel.md R202 to R204). -/

namespace Sys2Proof.Machine

/-! ## The extremes of a frame (R203) -/

theorem maxQ_eq_max (a b : Q) : maxQ a b = max a b := (max_def a b).symm

theorem minQ_eq_min (a b : Q) : minQ a b = min a b := (min_def a b).symm

theorem max?_eq_some_frameMax {vs : List Q} (h : vs ≠ []) : vs.max? = some (frameMax vs) := by
  obtain ⟨v, vs, rfl⟩ := List.exists_cons_of_ne_nil h
  simp only [frameMax, funext₂ maxQ_eq_max]
  exact List.max?_cons'

theorem min?_eq_some_frameMin {vs : List Q} (h : vs ≠ []) : vs.min? = some (frameMin vs) := by
  obtain ⟨v, vs, rfl⟩ := List.exists_cons_of_ne_nil h
  simp only [frameMin, funext₂ minQ_eq_min]
  exact List.min?_cons'

/-- The maximum is a value of the frame, and none is above it. -/
theorem frameMax_isGreatest {vs : List Q} (h : vs ≠ []) : frameMax vs ∈ vs ∧ ∀ v ∈ vs, v ≤ frameMax vs :=
  List.max?_eq_some_iff.1 (max?_eq_some_frameMax h)

/-- The minimum is a value of the frame, and none is below it. -/
theorem frameMin_isLeast {vs : List Q} (h : vs ≠ []) : frameMin vs ∈ vs ∧ ∀ v ∈ vs, frameMin vs ≤ v :=
  List.min?_eq_some_iff.1 (min?_eq_some_frameMin h)

/-! ## Removing the offset (R204) -/

/-- In exact arithmetic the two ones of the offset cancel. -/
theorem dcOffset_exact (vs : List Q) : dcOffset .exact vs = |frameMin vs| - frameMax vs := by
  simp only [dcOffset, numSub_exact, numAbs_exact]
  ring

/-- A constant frame is its own maximum and minimum, so a negative one is tripled (R204). -/
theorem removeDc_replicate (n : Nat) (a : Q) :
    removeDc .exact (List.replicate (n + 1) a) = List.replicate (n + 1) (if 0 ≤ a then a else 3 * a) := by
  have hne : List.replicate (n + 1) a ≠ [] := List.cons_ne_nil _ _
  have hmax : frameMax (List.replicate (n + 1) a) = a := List.eq_of_mem_replicate (frameMax_isGreatest hne).1
  have hmin : frameMin (List.replicate (n + 1) a) = a := List.eq_of_mem_replicate (frameMin_isLeast hne).1
  rw [removeDc, dcOffset_exact, hmax, hmin, List.map_replicate, numSub_exact]
  congr 1
  split
  · next h => rw [abs_of_nonneg h]; ring
  · next h => rw [abs_of_neg (not_le.1 h)]; ring

/-- Settles O41: the two extremes are those of the normalised frame. -/
theorem correctedFrameFollowsTheFormula : Obligations.CorrectedFrameFollowsTheFormula := by
  refine ⟨fun cfg raw r hne => ?_, fun _ _ => ⟨rfl, rfl, numAbs_exact _⟩, normalise_exact, removeDc_replicate⟩
  have hne' : raw.map (normalise cfg) ≠ [] := List.map_eq_nil_iff.not.2 hne
  obtain ⟨hmaxMem, hmaxLe⟩ := frameMax_isGreatest hne'
  obtain ⟨hminMem, hminLe⟩ := frameMin_isLeast hne'
  refine ⟨frameMax (raw.map (normalise cfg)), frameMin (raw.map (normalise cfg)), List.mem_map.1 hmaxMem,
    fun x hx => hmaxLe _ (List.mem_map_of_mem hx), List.mem_map.1 hminMem,
    fun x hx => hminLe _ (List.mem_map_of_mem hx), correctedFrame cfg raw, List.map_map, rfl⟩

end Sys2Proof.Machine
end

section
/-! SUPPORT. The detectors: the recurrence in exact arithmetic under scaling and over zeros, and what the radicand says of the power
(43_goertzel.md R205 to R211). -/

namespace Sys2Proof.Machine

/-! ## The recurrence and the radicand in exact arithmetic (R205, R206) -/

/-- Over zeros from (0, 0) the recurrence stays there (R211 (c)). -/
theorem recur_replicate_zero (c : Q) (n : Nat) : recur .exact c 0 0 (List.replicate n 0) = (0, 0) := by
  induction n with
  | zero => rfl
  | succ n ih => simpa [List.replicate_succ, recur] using ih

/-- The recurrence is linear: values and samples scaled by `a` stay scaled by `a` (R211 (a)). -/
theorem recur_scale (a c q1 q2 : Q) (xs : List Q) :
    recur .exact c (a * q1) (a * q2) (xs.map fun x => a * x) =
      (a * (recur .exact c q1 q2 xs).1, a * (recur .exact c q1 q2 xs).2) := by
  induction xs generalizing q1 q2 with
  | nil => rfl
  | cons x xs ih =>
    have hstep : c * (a * q1) - a * q2 + a * x = a * (c * q1 - q2 + x) := by ring
    simp only [List.map_cons, recur, numAdd_exact, numSub_exact, numMul_exact, hstep]
    exact ih _ _

theorem radicand_exact (c q1 q2 : Q) : radicand .exact c q1 q2 = q1 * q1 + q2 * q2 - c * q1 * q2 := rfl

/-- The radicand is quadratic (R211 (a)). -/
theorem radicand_scale (a c q1 q2 : Q) :
    radicand .exact c (a * q1) (a * q2) = a * a * radicand .exact c q1 q2 := by
  simp only [radicand_exact]
  ring

/-- The recurrence over a zero sample keeps the radicand (R206). -/
theorem radicand_recur_replicate_zero (c q1 q2 : Q) (n : Nat) :
    radicand .exact c (recur .exact c q1 q2 (List.replicate n 0)).1 (recur .exact c q1 q2 (List.replicate n 0)).2 =
      radicand .exact c q1 q2 := by
  induction n generalizing q1 q2 with
  | zero => rfl
  | succ n ih =>
    calc _ = radicand .exact c (c * q1 - q2 + 0) q1 := ih _ _
      _ = radicand .exact c q1 q2 := by simp only [radicand_exact]; ring

/-- A coefficient between -2 and 2 makes the radicand a sum of two squares with weights not below 0 (G4). -/
theorem radicand_nonneg {c : Q} (hlo : -2 ≤ c) (hhi : c ≤ 2) (q1 q2 : Q) : 0 ≤ radicand .exact c q1 q2 := by
  have hsum : 0 ≤ 2 + c := by linarith
  have hdiff : 0 ≤ 2 - c := by linarith
  calc 0 ≤ (2 + c) / 4 * (q1 - q2) ^ 2 + (2 - c) / 4 * (q1 + q2) ^ 2 := by positivity
    _ = radicand .exact c q1 q2 := by rw [radicand_exact]; ring

/-! ## One detector -/

theorem runDetector_power2 (nm : Numerics) (frame : List Q) (g : GoertzelData) :
    (runDetector nm frame g).power2 =
      radicand nm g.coeff (recur nm g.coeff 0 0 frame).1 (recur nm g.coeff 0 0 frame).2 := rfl

/-- A silent frame leaves every detector at 0 (R211 (c)). -/
theorem runDetector_replicate_zero (n : Nat) (g : GoertzelData) :
    runDetector .exact (List.replicate n 0) g = { g with q1 := 0, q2 := 0, power2 := 0 } := by
  simp [runDetector, recur_replicate_zero, radicand_exact]

/-- A detector at 0 shows no tone: no square is below 0 (R207, R209). -/
theorem present_eq_false_of_power2 {cfg : Cfg} {g : GoertzelData} (hnum : cfg.numerics = .exact) (hpow : g.power2 = 0) :
    present cfg g = false := by
  simpa [present, hnum, hpow] using mul_self_nonneg cfg.silenceThreshold

/-- A centred frame is corrected to zeros (R203, R204). -/
theorem correctedFrame_centred {cfg : Cfg} (hnum : cfg.numerics = .exact) (n : Nat) :
    correctedFrame cfg (List.replicate (n + 1) cfg.adcCenter) = List.replicate (n + 1) 0 := by
  rw [correctedFrame, hnum, List.map_replicate, normalise_exact cfg _ hnum, sub_self, zero_div, removeDc_replicate,
    if_pos le_rfl]

/-- Settles O40. -/
theorem centredFrameIsSilence : Obligations.CentredFrameIsSilence := by
  intro cfg r hnum _
  have hframe := correctedFrame_centred hnum 319
  have hgz : (gzFrame cfg (List.replicate 320 cfg.adcCenter) r).gz =
      r.gz.map fun g => { g with q1 := 0, q2 := 0, power2 := 0 } := by
    simp only [gzFrame, hframe, hnum, funext (runDetector_replicate_zero _)]
  refine ⟨hframe, hgz, ?_⟩
  simp only [gzClassify, hgz, Six.map, present_eq_false_of_power2 hnum]
  rfl

/-- Settles O42: the recurrence takes one more sample by `recur_append`. -/
theorem detectorsRunTheRecurrence : Obligations.DetectorsRunTheRecurrence := by
  refine ⟨fun nm g => ⟨rfl, rfl, fun frame x => ⟨?_, ?_, rfl, rfl⟩⟩, fun _ _ => ⟨rfl, rfl, rfl⟩, fun g n => ?_⟩
  · exact congrArg Prod.fst (recur_append nm g.coeff 0 0 frame x)
  · exact congrArg Prod.snd (recur_append nm g.coeff 0 0 frame x)
  · calc _ = radicand .exact g.coeff (g.coeff * 0 - 0 + 1) 0 := radicand_recur_replicate_zero _ _ _ n
      _ = 1 := by rw [radicand_exact]; ring

/-- Settles O43: the recurrence is linear and the radicand quadratic. -/
theorem powerScalesWithTheFrame : Obligations.PowerScalesWithTheFrame := by
  intro a frame g
  have hrecur := recur_scale a g.coeff 0 0 frame
  rw [mul_zero] at hrecur
  rw [runDetector_power2, runDetector_power2, hrecur, radicand_scale]

/-- A tone is present exactly when the detector's power exceeds the threshold: in exact arithmetic by comparing squares (R207,
R209). -/
theorem present_iff {cfg : Cfg} (hthr : 0 ≤ cfg.silenceThreshold) (g : GoertzelData) :
    present cfg g = true ↔ (cfg.silenceThreshold : ℝ) < powerOf cfg.numerics g := by
  unfold present powerOf
  cases cfg.numerics with
  | exact =>
    rw [decide_eq_true_iff, Real.lt_sqrt (Rat.cast_nonneg.2 hthr), pow_two]
    exact_mod_cast Iff.rfl
  | platform id => rw [decide_eq_true_iff, Rat.cast_lt]

/-- Settles O44. -/
theorem presenceIsPowerAboveTheThreshold : Obligations.PresenceIsPowerAboveTheThreshold :=
  fun _ _ _ hthr => ⟨present_iff hthr _, rfl, fun hlo hhi => radicand_nonneg hlo hhi _ _⟩

end Sys2Proof.Machine
end

section
/-! SUPPORT. Frame classes and `MF_DECODE`: how many tones a mask holds, the masks of the MF table's rows, and the decoder as the
index of the first row with a mask (43_goertzel.md R208; 30_encoding.md R84, R85; 00_scope.md R12; 44_mf_decoder.md R221). -/

namespace Sys2Proof.Machine

/-! ## The class of a frame (R208) -/

theorem countPresent_eq_count (p : Six Bool) : countPresent p = p.toList.count true := by
  obtain ⟨b0, b1, b2, b3, b4, b5⟩ := p
  simp only [countPresent, Six.toList, List.map_cons, List.map_nil, List.sum_cons, List.sum_nil, List.count_cons,
    List.count_nil, beq_true]
  ring

theorem classOf_eq_silence_iff (p : Six Bool) : classOf p = .silence ↔ p.toList.count true = 0 := by
  rw [← countPresent_eq_count]
  unfold classOf
  split_ifs <;> simp_all

theorem classOf_eq_invalid_iff (p : Six Bool) :
    classOf p = .invalid ↔ p.toList.count true ≠ 0 ∧ p.toList.count true ≠ 2 := by
  rw [← countPresent_eq_count]
  unfold classOf
  split_ifs <;> simp_all

theorem classOf_eq_valid_iff (p : Six Bool) (m : Mask) :
    classOf p = .valid m ↔ p.toList.count true = 2 ∧ maskOf p = m := by
  rw [← countPresent_eq_count]
  unfold classOf
  split_ifs <;> simp_all

/-- Bit `k` of the mask is flag `k` (R208, D27). -/
theorem map_getLsbD_maskOf (p : Six Bool) : (List.range 6).map (maskOf p).getLsbD = p.toList := by
  obtain ⟨b0, b1, b2, b3, b4, b5⟩ := p
  revert b0 b1 b2 b3 b4 b5
  decide

/-! ## The masks of the MF table (R84, R85) -/

theorem freqBit_gzFreq {k : Nat} (hk : k < 6) : freqBit ((700 + 200 * k : Nat) : Q) = BitVec.ofNat 6 (2 ^ k) := by
  interval_cases k <;> norm_num [freqBit] <;> rfl

/-- The bit of a frequency is none or one detector's. -/
theorem freqBit_cases (f : Q) : freqBit f = 0 ∨ ∃ k < 6, freqBit f = BitVec.ofNat 6 (2 ^ k) := by
  unfold freqBit
  split_ifs
  · exact .inr ⟨0, by decide, rfl⟩
  · exact .inr ⟨1, by decide, rfl⟩
  · exact .inr ⟨2, by decide, rfl⟩
  · exact .inr ⟨3, by decide, rfl⟩
  · exact .inr ⟨4, by decide, rfl⟩
  · exact .inr ⟨5, by decide, rfl⟩
  · exact .inl rfl

/-- How many detectors' bits a mask holds. -/
def toneCount (m : Mask) : Nat := ((List.range 6).map m.getLsbD).count true

/-- A row of two distinct detector frequencies has a mask of two tones (R12 (d)). -/
theorem toneCount_pairMask {p : FreqPair} (ha : freqBit p.fa ≠ 0) (hb : freqBit p.fb ≠ 0)
    (hne : freqBit p.fa ≠ freqBit p.fb) : toneCount (pairMask p) = 2 := by
  have htwo : ∀ j < 6, ∀ k < 6, BitVec.ofNat 6 (2 ^ j) ≠ BitVec.ofNat 6 (2 ^ k) →
      toneCount (BitVec.ofNat 6 (2 ^ j) ||| BitVec.ofNat 6 (2 ^ k)) = 2 := by decide
  obtain ⟨j, hj, hfa⟩ := (freqBit_cases p.fa).resolve_left ha
  obtain ⟨k, hk, hfb⟩ := (freqBit_cases p.fb).resolve_left hb
  rw [pairMask, hfa, hfb]
  exact htwo j hj k hk (hfa ▸ hfb ▸ hne)

theorem nodup_of_allDistinct {ms : List Mask} (h : allDistinct ms = true) : ms.Nodup := by
  induction ms with
  | nil => exact .nil
  | cons m ms ih =>
    simp only [allDistinct, Bool.and_eq_true, List.all_eq_true, bne_iff_ne] at h
    obtain ⟨hhead, htail⟩ := h
    exact List.nodup_cons.2 ⟨fun hmem => hhead m hmem rfl, ih htail⟩

/-- What R12 (d) says of the MF table: 15 rows, with distinct masks of two tones each. -/
structure MfPairWellFormed (cfg : Cfg) : Prop where
  length : cfg.mfPair.length = 15
  twoTones : ∀ m ∈ cfg.mfPair.map pairMask, toneCount m = 2
  nodup : (cfg.mfPair.map pairMask).Nodup

theorem mfPairWellFormed_of_wellFormed {cfg : Cfg} (hw : Cfg.wellFormed cfg = true) : MfPairWellFormed cfg := by
  simp only [Cfg.wellFormed, Cfg.mfPairOk, Bool.and_eq_true, decide_eq_true_eq, List.all_eq_true, bne_iff_ne] at hw
  obtain ⟨-, ⟨hlen, hrows⟩, hdistinct⟩ := hw
  refine ⟨hlen, fun m hm => ?_, nodup_of_allDistinct hdistinct⟩
  obtain ⟨p, hp, rfl⟩ := List.mem_map.1 hm
  obtain ⟨⟨ha, hb⟩, hne⟩ := hrows p hp
  exact toneCount_pairMask ha hb hne

/-- The table has every mask of two tones: there are 15 of them, and 15 distinct rows (R85). -/
theorem MfPairWellFormed.mem_of_twoTones {cfg : Cfg} (ht : MfPairWellFormed cfg) {m : Mask} (hm : toneCount m = 2) :
    m ∈ cfg.mfPair.map pairMask := by
  have hcard : (Finset.univ.filter fun m : Mask => toneCount m = 2).card = 15 := by decide
  have hsub : (cfg.mfPair.map pairMask).toFinset ⊆ Finset.univ.filter fun m : Mask => toneCount m = 2 := fun m hm =>
    Finset.mem_filter.2 ⟨Finset.mem_univ m, ht.twoTones m (List.mem_toFinset.1 hm)⟩
  have hall := Finset.eq_of_subset_of_card_le hsub (by
    rw [hcard, List.toFinset_card_of_nodup ht.nodup, List.length_map, ht.length])
  exact List.mem_toFinset.1 (hall ▸ Finset.mem_filter.2 ⟨Finset.mem_univ m, hm⟩)

/-! ## `MF_DECODE` (R85, R221) -/

/-- From code `d` on, the character is that of the code at the index of the first row with the mask. -/
theorem mfDecodeFrom_eq_findIdx? (m : Mask) (ps : List FreqPair) (d : DigitCode) :
    mfDecodeFrom m ps d =
      (ps.findIdx? fun p => pairMask p = m).map fun i => digitChar (d + BitVec.ofNat 4 i) := by
  induction ps generalizing d with
  | nil => rfl
  | cons p ps ih =>
    have hnext (i : Nat) : d + 1#4 + BitVec.ofNat 4 i = d + BitVec.ofNat 4 (i + 1) := by
      rw [BitVec.ofNat_add, BitVec.add_assoc, BitVec.add_comm 1#4]
    rw [mfDecodeFrom, List.findIdx?_cons]
    by_cases hp : pairMask p = m
    · simp [hp]
    · simp [hp, ih, hnext, Function.comp_def]

theorem mfDecode_eq_findIdx? (cfg : Cfg) (m : Mask) :
    mfDecode cfg m =
      (cfg.mfPair.findIdx? fun p => pairMask p = m).map fun i => digitChar (BitVec.ofNat 4 i) := by
  simp [mfDecode, mfDecodeFrom_eq_findIdx?]

/-- A mask that decodes is some row's, and its character is that of the row's code. -/
theorem exists_row_of_mfDecode {cfg : Cfg} (hlen : cfg.mfPair.length = 15) {m : Mask} {ch : Ascii}
    (h : mfDecode cfg m = some ch) :
    ∃ (d : DigitCode) (p : FreqPair), cfg.mfPair[d.toNat]? = some p ∧ pairMask p = m ∧ digitChar d = ch := by
  rw [mfDecode_eq_findIdx?] at h
  obtain ⟨i, hi, hch⟩ := Option.map_eq_some_iff.1 h
  obtain ⟨hlt, hmask, -⟩ := List.findIdx?_eq_some_iff_getElem.1 hi
  have hcode : (BitVec.ofNat 4 i).toNat = i := by rw [BitVec.toNat_ofNat]; omega
  exact ⟨BitVec.ofNat 4 i, cfg.mfPair[i], by rw [hcode, List.getElem?_eq_getElem hlt], of_decide_eq_true hmask, hch⟩

/-- The mask of a row decodes to the row's own character, since no other row has it. -/
theorem mfDecode_pairMask {cfg : Cfg} (ht : MfPairWellFormed cfg) {d : DigitCode} {p : FreqPair}
    (hrow : cfg.mfPair[d.toNat]? = some p) : mfDecode cfg (pairMask p) = some (digitChar d) := by
  obtain ⟨hlt, hget⟩ := List.getElem?_eq_some_iff.1 hrow
  have hfirst : (cfg.mfPair.findIdx? fun q => pairMask q = pairMask p) = some d.toNat := by
    refine List.findIdx?_eq_some_iff_getElem.2 ⟨hlt, by simp [hget], fun j hj hmask => ?_⟩
    have heq := List.pairwise_iff_getElem.1 (List.pairwise_map.1 ht.nodup) j d.toNat (hj.trans hlt) hlt hj
    exact heq (by rw [hget]; exact of_decide_eq_true hmask)
  rw [mfDecode_eq_findIdx?, hfirst, Option.map_some, BitVec.ofNat_toNat, BitVec.setWidth_eq]

theorem mfDecode_isSome_of_mem {cfg : Cfg} {m : Mask} (h : m ∈ cfg.mfPair.map pairMask) : (mfDecode cfg m).isSome := by
  rw [mfDecode_eq_findIdx?, Option.isSome_map, List.findIdx?_isSome]
  simpa using h

/-- 15 rows give every code one but 0xF (R85). -/
theorem mfPair_getElem?_eq_none_iff {cfg : Cfg} (hlen : cfg.mfPair.length = 15) (d : DigitCode) :
    cfg.mfPair[d.toNat]? = none ↔ d = 0xF := by
  rw [List.getElem?_eq_none_iff, hlen]
  bv_omega

theorem isTerminator_iff_mem (ch : Ascii) : isTerminator ch = true ↔ ch ∈ [0x23#8, 0x41#8, 0x42#8, 0x43#8] := by
  simp [isTerminator, or_assoc]

/-- Settles O45. -/
theorem frameClassesCountTonesAndDecode : Obligations.FrameClassesCountTonesAndDecode := by
  refine ⟨fun p => ⟨classOf_eq_silence_iff p, classOf_eq_invalid_iff p, fun m hm => ?_⟩, fun j k hj hk => ?_,
    fun cfg hw => ?_, isTerminator_iff_mem⟩
  · obtain ⟨hcount, rfl⟩ := (classOf_eq_valid_iff p m).1 hm
    exact ⟨hcount, map_getLsbD_maskOf p⟩
  · rw [pairMask, freqBit_gzFreq hj, freqBit_gzFreq hk]
  · have ht := mfPairWellFormed_of_wellFormed hw
    exact ⟨mfPair_getElem?_eq_none_iff ht.length, fun _ _ => mfDecode_pairMask ht,
      fun _ _ => exists_row_of_mfDecode ht.length, fun _ hm => mfDecode_isSome_of_mem (ht.mem_of_twoTones hm)⟩

end Sys2Proof.Machine
end

section
/-! SUPPORT. One frame in each receiving state, as an equation per case (44_mf_decoder.md R222 to R230). -/

namespace Sys2Proof.Machine

/-! ## The shared operations, each in one equation -/

/-- An append writes the character where there is room and is dropped otherwise (R223). -/
theorem mfAppend_eq (cfg : Cfg) (c : Ascii) (mf : MfData) :
    mfAppend cfg c mf =
      { mf with
        digits := if mf.ndigits < cfg.mfMaxDigits then (mf.digits.set mf.ndigits c).set (mf.ndigits + 1) 0 else mf.digits,
        ndigits := if mf.ndigits < cfg.mfMaxDigits then mf.ndigits + 1 else mf.ndigits } := by
  rcases mfAppend_cases cfg c mf with ⟨hroom, e⟩ | ⟨hfull, e⟩
  · rw [e, if_pos hroom, if_pos hroom]
  · rw [e, if_neg hfull.not_gt, if_neg hfull.not_gt]

/-- The count a frame of code `m` brings the debounce to. -/
def countWith (m : Mask) (mf : MfData) : Nat := if mf.digCount = 0 ∨ m ≠ mf.cand then 1 else mf.digCount + 1

/-- The mask of the frame is the candidate, counted from 1 or one further (R228). -/
theorem debounce_eq_countWith (m : Mask) (mf : MfData) :
    debounce m mf = { mf with cand := m, digCount := countWith m mf } := by
  unfold debounce countWith
  split
  · rfl
  · next hsame =>
    obtain ⟨-, hm⟩ := not_or.1 hsame
    rw [not_not.1 hm]

/-! ## The chaining of the transient states (R230) -/

section
variable {cfg : Cfg} {mf : MfData}

/-- What the rule of a settled state leaves settled, the chaining leaves alone. -/
theorem mfdChain_of_settled (h : settled mf) : mfdDone (mfdTimeout mf) = (mf, []) := by
  obtain ⟨htimeout, hdone⟩ := h
  rcases mfdChain_cases mf with ⟨hst, -⟩ | ⟨hst, -⟩ | ⟨-, -, e⟩
  · exact absurd hst htimeout
  · exact absurd hst hdone
  · exact e

theorem mfdChain_of_done (h : mf.state = .done) :
    mfdDone (mfdTimeout mf) =
      ({ mf with state := .waitRelease }, [.mfDone mf.cb mf.error mf.ndigits (mf.digits.take mf.ndigits)]) := by
  rcases mfdChain_cases mf with ⟨hst, -⟩ | ⟨-, e⟩ | ⟨-, hst, -⟩
  · exact absurd (h.symm.trans hst) (by decide)
  · exact e
  · exact absurd h hst

theorem mfdChain_of_timeout (h : mf.state = .timeout) :
    mfdDone (mfdTimeout mf) =
      ({ mf with error := .timeout, state := .waitRelease },
        [.mfDone mf.cb .timeout mf.ndigits (mf.digits.take mf.ndigits)]) := by
  rcases mfdChain_cases mf with ⟨-, e⟩ | ⟨hst, -⟩ | ⟨hst, -, -⟩
  · exact e
  · exact absurd (h.symm.trans hst) (by decide)
  · exact absurd h hst

/-- A frame on which the interdigit timer runs without running out (R224). -/
theorem mfdChain_runTimer_of_lt (h : settled mf) (hlt : mf.timer + 1 < cfg.mfInterdigitTimeout) :
    mfdDone (mfdTimeout (runTimer cfg mf)) = ({ mf with timer := mf.timer + 1 }, []) := by
  rcases runTimer_cases cfg mf with ⟨hle, -⟩ | ⟨-, e⟩
  · exact absurd hlt hle.not_gt
  · rw [e]
    exact mfdChain_of_settled h

/-- The frame on which the interdigit timer runs out ends the reception (R224, R231, R232). -/
theorem mfdChain_runTimer_of_le (hle : cfg.mfInterdigitTimeout ≤ mf.timer + 1) :
    mfdDone (mfdTimeout (runTimer cfg mf)) =
      ({ mf with timer := mf.timer + 1, error := .timeout, state := .waitRelease },
        [.mfDone mf.cb .timeout mf.ndigits (mf.digits.take mf.ndigits)]) := by
  rcases runTimer_cases cfg mf with ⟨-, e⟩ | ⟨hlt, -⟩
  · rw [e]
    exact mfdChain_of_timeout rfl
  · exact absurd hlt hle.not_gt

theorem settled_of_receiving (h : receiving mf) : settled mf := by
  rcases h with h | h | h | h <;> rw [settled, h] <;> decide

end

/-! ## `WaitKp` (R226) -/

section
variable {cfg : Cfg} {cls : FrameClass} {mf : MfData}

theorem mfdStep_of_waitKp (h : mf.state = .waitKp) (cls : FrameClass) :
    mfdStep cfg cls mf = mfdDone (mfdTimeout (mfdWaitKp cfg cls mf)) := by
  rw [mfdStep, mfdState, h]

theorem mfdStep_waitKp_other (h : mf.state = .waitKp) (hcls : cls ≠ .valid kpMask) :
    mfdStep cfg cls mf = ({ mf with kpCount := 0 }, []) := by
  rw [mfdStep_of_waitKp h, mfdWaitKp, if_neg hcls]
  exact mfdChain_of_settled (settled_of_receiving (mf := mf) (.inl h))

theorem mfdStep_waitKp_counts (h : mf.state = .waitKp) (hlt : mf.kpCount + 1 < cfg.minKpGateBlockCount) :
    mfdStep cfg (.valid kpMask) mf = ({ mf with kpCount := mf.kpCount + 1 }, []) := by
  rw [mfdStep_of_waitKp h, mfdWaitKp, if_pos rfl, if_neg hlt.not_ge]
  exact mfdChain_of_settled (settled_of_receiving (mf := mf) (.inl h))

theorem mfdStep_waitKp_accepts (h : mf.state = .waitKp) (hle : cfg.minKpGateBlockCount ≤ mf.kpCount + 1) :
    mfdStep cfg (.valid kpMask) mf =
      ({ mfAppend cfg 0x2A mf with kpCount := 0, digCount := 0, cand := 0, timer := 0, state := .kpSilence }, []) := by
  rw [mfdStep_of_waitKp h, mfdWaitKp, if_pos rfl, if_pos hle]
  exact mfdChain_of_settled ⟨nofun, nofun⟩

/-! ## `KpSilence` (R227) -/

theorem mfdStep_of_kpSilence (h : mf.state = .kpSilence) (cls : FrameClass) :
    mfdStep cfg cls mf = mfdDone (mfdTimeout (mfdKpSilence cfg cls mf)) := by
  rw [mfdStep, mfdState, h]

theorem mfdStep_kpSilence_silence (h : mf.state = .kpSilence) :
    mfdStep cfg .silence mf = ({ mf with timer := 0, digCount := 0, cand := 0, state := .waitDigit }, []) := by
  rw [mfdStep_of_kpSilence h, mfdKpSilence]
  exact mfdChain_of_settled ⟨nofun, nofun⟩

theorem mfdStep_kpSilence_other (h : mf.state = .kpSilence) (hcls : cls ≠ .silence) :
    mfdStep cfg cls mf = mfdDone (mfdTimeout (runTimer cfg mf)) := by
  rw [mfdStep_of_kpSilence h]
  cases cls with
  | silence => exact absurd rfl hcls
  | valid m => rfl
  | invalid => rfl

/-! ## `WaitDigit` (R228) -/

theorem mfdStep_of_waitDigit (h : mf.state = .waitDigit) (cls : FrameClass) :
    mfdStep cfg cls mf = mfdDone (mfdTimeout (mfdWaitDigit cfg cls mf)) := by
  rw [mfdStep, mfdState, h]

theorem mfdStep_waitDigit_notValid (h : mf.state = .waitDigit) (hcls : notValid cls) :
    mfdStep cfg cls mf = mfdDone (mfdTimeout (runTimer cfg { mf with digCount := 0 })) := by
  rw [mfdStep_of_waitDigit h]
  rcases hcls with rfl | rfl <;> rfl

theorem mfdStep_waitDigit_notValid_of_lt (h : mf.state = .waitDigit) (hcls : notValid cls)
    (hlt : mf.timer + 1 < cfg.mfInterdigitTimeout) :
    mfdStep cfg cls mf = ({ mf with digCount := 0, timer := mf.timer + 1 }, []) := by
  rw [mfdStep_waitDigit_notValid h hcls]
  exact mfdChain_runTimer_of_lt (settled_of_receiving (mf := mf) (.inr (.inr (.inl h)))) hlt

theorem mfdStep_waitDigit_notValid_of_le (h : mf.state = .waitDigit) (hcls : notValid cls)
    (hle : cfg.mfInterdigitTimeout ≤ mf.timer + 1) :
    mfdStep cfg cls mf =
      ({ mf with digCount := 0, timer := mf.timer + 1, error := .timeout, state := .waitRelease },
        [.mfDone mf.cb .timeout mf.ndigits (mf.digits.take mf.ndigits)]) := by
  rw [mfdStep_waitDigit_notValid h hcls]
  exact mfdChain_runTimer_of_le hle

/-- No frame of another code since the count began: it goes one further. -/
theorem countWith_eq_succ {m : Mask} (h : mf.digCount ≠ 0 → mf.cand = m) : countWith m mf = mf.digCount + 1 := by
  unfold countWith
  split
  · next hnew =>
    rcases hnew with hzero | hne
    · rw [hzero]
    · by_contra hcount
      exact hne (h (by omega)).symm
  · rfl

theorem mfdStep_waitDigit_counts (h : mf.state = .waitDigit) {m : Mask} {n : Nat} (hn : countWith m mf = n)
    (hlt : n < cfg.minDigitBlockCount) : mfdStep cfg (.valid m) mf = ({ mf with cand := m, digCount := n }, []) := by
  simp only [mfdStep_of_waitDigit h, mfdWaitDigit, debounce_eq_countWith, hn, if_neg hlt.not_ge]
  exact mfdChain_of_settled (settled_of_receiving (mf := mf) (.inr (.inr (.inl h))))

theorem mfdStep_waitDigit_decodes (h : mf.state = .waitDigit) {m : Mask} {n : Nat} (hn : countWith m mf = n)
    (hle : cfg.minDigitBlockCount ≤ n) {ch : Ascii} (hdec : mfDecode cfg m = some ch) :
    mfdStep cfg (.valid m) mf =
      ({ mf with cand := m, digCount := n, pend := some ch, timer := 0, state := .waitDigitSilence }, []) := by
  simp only [mfdStep_of_waitDigit h, mfdWaitDigit, debounce_eq_countWith, hn, if_pos hle, hdec]
  exact mfdChain_of_settled ⟨nofun, nofun⟩

theorem mfdStep_waitDigit_unmatched (h : mf.state = .waitDigit) {m : Mask} {n : Nat} (hn : countWith m mf = n)
    (hle : cfg.minDigitBlockCount ≤ n) (hdec : mfDecode cfg m = none) :
    mfdStep cfg (.valid m) mf = ({ mf with cand := m, digCount := 0 }, []) := by
  simp only [mfdStep_of_waitDigit h, mfdWaitDigit, debounce_eq_countWith, hn, if_pos hle, hdec]
  exact mfdChain_of_settled (settled_of_receiving (mf := mf) (.inr (.inr (.inl h))))

/-! ## `WaitDigitSilence` (R229) -/

theorem mfdStep_of_waitDigitSilence (h : mf.state = .waitDigitSilence) (cls : FrameClass) :
    mfdStep cfg cls mf = mfdDone (mfdTimeout (mfdWaitDigitSilence cfg cls mf)) := by
  rw [mfdStep, mfdState, h]

theorem mfdStep_waitDigitSilence_other (h : mf.state = .waitDigitSilence) (hcls : cls ≠ .silence) :
    mfdStep cfg cls mf = mfdDone (mfdTimeout (runTimer cfg mf)) := by
  rw [mfdStep_of_waitDigitSilence h]
  cases cls with
  | silence => exact absurd rfl hcls
  | valid m => rfl
  | invalid => rfl

theorem mfdStep_waitDigitSilence_loops (h : mf.state = .waitDigitSilence) {ch : Ascii} (hpend : mf.pend = some ch)
    (hterm : isTerminator ch = false) :
    mfdStep cfg .silence mf =
      ({ mfAppend cfg ch mf with digCount := 0, cand := 0, timer := 0, state := .waitDigit }, []) := by
  have hch : pending mf = ch := by rw [pending, hpend, Option.getD_some]
  simp only [mfdStep_of_waitDigitSilence h, mfdWaitDigitSilence, hch, hterm, Bool.false_eq_true, if_false]
  exact mfdChain_of_settled ⟨nofun, nofun⟩

theorem mfdStep_waitDigitSilence_completes (h : mf.state = .waitDigitSilence) {ch : Ascii} (hpend : mf.pend = some ch)
    (hterm : isTerminator ch = true) :
    mfdStep cfg .silence mf =
      ({ mfAppend cfg ch mf with state := .waitRelease },
        [.mfDone (mfAppend cfg ch mf).cb (mfAppend cfg ch mf).error (mfAppend cfg ch mf).ndigits
          ((mfAppend cfg ch mf).digits.take (mfAppend cfg ch mf).ndigits)]) := by
  have hch : pending mf = ch := by rw [pending, hpend, Option.getD_some]
  simp only [mfdStep_of_waitDigitSilence h, mfdWaitDigitSilence, hch, hterm, if_true]
  exact mfdChain_of_done rfl

end

/-- Settles O51, by the equations of the two states. -/
theorem kpStatesFollowTheirRules : Obligations.KpStatesFollowTheirRules := by
  intro cfg cls mf
  constructor
  · intro h
    refine ⟨mfdStep_waitKp_other h, ?_, ?_⟩
    · rintro rfl hlt
      exact mfdStep_waitKp_counts h hlt
    · rintro rfl hle
      rw [mfdStep_waitKp_accepts h hle, mfAppend_eq]
  · intro h
    refine ⟨?_, fun hcls hlt => ?_, fun hcls hle => ?_⟩
    · rintro rfl
      exact mfdStep_kpSilence_silence h
    · rw [mfdStep_kpSilence_other h hcls, mfdChain_runTimer_of_lt (settled_of_receiving (.inr (.inl h))) hlt]
    · rw [mfdStep_kpSilence_other h hcls, mfdChain_runTimer_of_le hle]

end Sys2Proof.Machine
end

section
/-! SUPPORT. Runs of frames: how they compose, a sustained code, a sequence of digits, the timeout (44_mf_decoder.md R228, R229,
R233 to R237). -/

namespace Sys2Proof.Machine

/-! ## How runs compose -/

section
variable {cfg : Cfg} {cs ds : List FrameClass} {c : FrameClass} {mf mf' : MfData} {es : List Event}

theorem feed_singleton (cfg : Cfg) (c : FrameClass) (mf : MfData) : feed cfg [c] mf = mfdStep cfg c mf := by
  rw [feed, feed, List.append_nil]

/-- After a run that delivered nothing, only the rest of the frames matters. -/
theorem feed_append_of_eq (h : feed cfg cs mf = (mf', [])) : feed cfg (cs ++ ds) mf = feed cfg ds mf' := by
  induction cs generalizing mf with
  | nil => cases h; rfl
  | cons c cs ih =>
    rw [feed, Prod.mk.injEq, List.append_eq_nil_iff] at h
    obtain ⟨hmf, hfirst, hrest⟩ := h
    rw [List.cons_append, feed, ih (Prod.ext hmf hrest), hfirst, List.nil_append]

theorem feed_concat_of_eq (h : feed cfg cs mf = (mf', [])) : feed cfg (cs ++ [c]) mf = mfdStep cfg c mf' := by
  rw [feed_append_of_eq h, feed_singleton]

end

/-! ## At most one completion (R237) -/

/-- A frame delivers nothing, or one event on entering `WaitRelease` (R230, R232). -/
theorem mfdStep_events (cfg : Cfg) (cls : FrameClass) (mf : MfData) :
    (mfdStep cfg cls mf).2 = [] ∨
      ((mfdStep cfg cls mf).2.length = 1 ∧ (mfdStep cfg cls mf).1.state = .waitRelease) := by
  unfold mfdStep
  rcases mfdChain_cases (mfdState cfg cls mf) with ⟨-, e⟩ | ⟨-, e⟩ | ⟨-, -, e⟩ <;> rw [e]
  · exact .inr ⟨rfl, rfl⟩
  · exact .inr ⟨rfl, rfl⟩
  · exact .inl rfl

theorem mfdStep_waitRelease {mf : MfData} (h : mf.state = .waitRelease) (cfg : Cfg) (cls : FrameClass) :
    mfdStep cfg cls mf = (mf, []) := by
  have hset : settled mf := by rw [settled, h]; decide
  rw [mfdStep, mfdState, h]
  exact mfdChain_of_settled hset

theorem feed_waitRelease {mf : MfData} (h : mf.state = .waitRelease) (cfg : Cfg) (cs : List FrameClass) :
    feed cfg cs mf = (mf, []) := by
  induction cs with
  | nil => rfl
  | cons c cs ih => rw [feed, mfdStep_waitRelease h, ih, List.nil_append]

/-- A run delivers nothing, or one event after which the decoder is in `WaitRelease`. No premise on the state is needed: the
chaining empties the transient ones on the first frame. -/
theorem feed_events (cfg : Cfg) (cs : List FrameClass) (mf : MfData) :
    (feed cfg cs mf).2 = [] ∨ ((feed cfg cs mf).2.length = 1 ∧ (feed cfg cs mf).1.state = .waitRelease) := by
  induction cs generalizing mf with
  | nil => exact .inl rfl
  | cons c cs ih =>
    rw [feed]
    rcases mfdStep_events cfg c mf with hnone | ⟨hone, hrelease⟩
    · rw [hnone, List.nil_append]
      exact ih _
    · rw [feed_waitRelease hrelease, List.append_nil]
      exact .inr ⟨hone, hrelease⟩

/-- Settles O48, by the run being silent or ending in `WaitRelease` (`feed_events`). -/
theorem receptionCompletesAtMostOnce : Obligations.ReceptionCompletesAtMostOnce := by
  intro cfg cs mf _
  refine ⟨?_, fun hne => ?_, fun h => feed_waitRelease h cfg cs⟩
  · rcases feed_events cfg cs mf with hnone | ⟨hone, -⟩
    · rw [hnone]
      exact Nat.zero_le 1
    · exact hone.le
  · rcases feed_events cfg cs mf with hnone | ⟨-, hrelease⟩
    · exact absurd hnone hne
    · exact hrelease

/-! ## The interdigit timeout (R236) -/

/-- While the timer lasts, frames that are not valid only count in it and reset the debounce. -/
theorem feed_notValid_of_lt {cfg : Cfg} {cs : List FrameClass} {mf : MfData} (hst : mf.state = .waitDigit)
    (hcs : ∀ c ∈ cs, notValid c) (hlt : mf.timer + cs.length < cfg.mfInterdigitTimeout) :
    ∃ count, feed cfg cs mf = ({ mf with digCount := count, timer := mf.timer + cs.length }, []) := by
  induction cs generalizing mf with
  | nil => exact ⟨mf.digCount, rfl⟩
  | cons c cs ih =>
    rw [List.length_cons] at hlt
    obtain ⟨hc, hrest⟩ := List.forall_mem_cons.1 hcs
    obtain ⟨count, hfeed⟩ := ih (mf := { mf with digCount := 0, timer := mf.timer + 1 }) hst hrest (by
      dsimp only
      omega)
    refine ⟨count, ?_⟩
    rw [feed, mfdStep_waitDigit_notValid_of_lt hst hc (by omega), hfeed, List.nil_append, List.length_cons,
      Nat.add_right_comm, Nat.add_assoc]

/-- Settles O47: the last of the timeout's frames finds the timer one short of it. -/
theorem interdigitTimeoutDeliversTheDigits : Obligations.InterdigitTimeoutDeliversTheDigits := by
  intro cfg mf cs hpos hst htimer hcs
  constructor
  · intro hlt
    obtain ⟨count, hfeed⟩ := feed_notValid_of_lt (cfg := cfg) hst hcs (by omega)
    rw [hfeed]
    exact ⟨hst, by simp [htimer], rfl⟩
  · intro hlen
    obtain rfl | ⟨cs, c, rfl⟩ := List.eq_nil_or_concat cs
    · exact absurd hpos (by simp [← hlen])
    · rw [List.concat_eq_append] at hlen hcs ⊢
      rw [List.length_append, List.length_singleton] at hlen
      rw [List.forall_mem_append, List.forall_mem_singleton] at hcs
      obtain ⟨hbefore, hlast⟩ := hcs
      obtain ⟨count, hfeed⟩ := feed_notValid_of_lt (cfg := cfg) hst hbefore (by omega)
      have hend : cfg.mfInterdigitTimeout ≤ mf.timer + cs.length + 1 := by omega
      rw [feed_concat_of_eq hfeed,
        mfdStep_waitDigit_notValid_of_le (mf := { mf with digCount := count, timer := _ }) hst hlast hend]
      exact ⟨rfl, rfl, rfl⟩

/-! ## A sustained code (R226, R228) -/

section
variable {cfg : Cfg} {mf : MfData}

theorem feed_replicate_kp {k : Nat} (hst : mf.state = .waitKp) (hcount : mf.kpCount = 0)
    (hlt : k < cfg.minKpGateBlockCount) :
    feed cfg (List.replicate k (.valid kpMask)) mf = ({ mf with kpCount := k }, []) := by
  induction k with
  | zero => rw [List.replicate_zero, feed, ← hcount]
  | succ k ih =>
    rw [List.replicate_succ', feed_concat_of_eq (ih (by omega))]
    exact mfdStep_waitKp_counts hst hlt

/-- From a fresh count, fewer frames of one code than the digit count: that many are counted. -/
theorem feed_replicate_valid_of_lt {m : Mask} {k : Nat} (hst : mf.state = .waitDigit) (hcount : mf.digCount = 0)
    (hlt : k < cfg.minDigitBlockCount) :
    ∃ cand, (k ≠ 0 → cand = m) ∧
      feed cfg (List.replicate k (.valid m)) mf = ({ mf with cand := cand, digCount := k }, []) := by
  induction k with
  | zero => exact ⟨mf.cand, fun h => absurd rfl h, by rw [List.replicate_zero, feed, ← hcount]⟩
  | succ k ih =>
    obtain ⟨cand, hcand, hfeed⟩ := ih (by omega)
    refine ⟨m, fun _ => rfl, ?_⟩
    rw [List.replicate_succ', feed_concat_of_eq hfeed]
    exact mfdStep_waitDigit_counts (mf := { mf with cand := cand, digCount := k }) hst (countWith_eq_succ hcand) hlt

/-- From a fresh count, the digit count's frames of one decodable code make its digit pending. -/
theorem feed_replicate_valid_pends {m : Mask} {ch : Ascii} (hst : mf.state = .waitDigit) (hcount : mf.digCount = 0)
    (hdec : mfDecode cfg m = some ch) (hpos : 1 ≤ cfg.minDigitBlockCount) :
    feed cfg (List.replicate cfg.minDigitBlockCount (.valid m)) mf =
      ({ mf with
          cand := m, digCount := cfg.minDigitBlockCount, pend := some ch, timer := 0, state := .waitDigitSilence }, []) := by
  obtain ⟨k, hk⟩ := Nat.exists_eq_add_of_le' hpos
  obtain ⟨cand, hcand, hfeed⟩ := feed_replicate_valid_of_lt (cfg := cfg) (m := m) (k := k) hst hcount (by omega)
  rw [hk, List.replicate_succ', feed_concat_of_eq hfeed]
  exact mfdStep_waitDigit_decodes (mf := { mf with cand := cand, digCount := k }) hst (countWith_eq_succ hcand) hk.le hdec

end

/-- Settles O52, by the equations of the two states and the run of a sustained code. -/
theorem digitStatesFollowTheirRules : Obligations.DigitStatesFollowTheirRules := by
  intro cfg mf
  constructor
  · intro h
    refine ⟨?_, fun cls hcls => ⟨mfdStep_waitDigit_notValid_of_lt h hcls, mfdStep_waitDigit_notValid_of_le h hcls⟩, ?_⟩
    · rintro m n rfl
      exact ⟨mfdStep_waitDigit_counts h rfl, fun _ hle => mfdStep_waitDigit_decodes h rfl hle,
        mfdStep_waitDigit_unmatched h rfl⟩
    · intro m ch n hcount hdec
      constructor
      · intro hpos hlt
        obtain ⟨cand, hcand, hfeed⟩ := feed_replicate_valid_of_lt (m := m) h hcount hlt
        rw [hfeed, hcand (Nat.ne_of_gt hpos)]
      · rintro hpos rfl
        exact feed_replicate_valid_pends h hcount hdec hpos
  · intro h
    constructor
    · rintro ch digits n hpend rfl rfl
      constructor
      · intro hterm
        rw [mfdStep_waitDigitSilence_loops h hpend hterm, mfAppend_eq]
      · intro hterm
        rw [mfdStep_waitDigitSilence_completes h hpend hterm, mfAppend_eq]
    · intro cls hcls
      rw [mfdStep_waitDigitSilence_other h hcls]
      exact ⟨mfdChain_runTimer_of_lt (settled_of_receiving (.inr (.inr (.inr h)))), mfdChain_runTimer_of_le⟩

/-! ## A sequence of digits (R235) -/

/-- The buffer's first `n` elements are the string `chars` (R34, D44). -/
structure DigitString (cfg : Cfg) (chars digits : List Ascii) (n : Nat) : Prop where
  buffer : digits.length = cfg.mfMaxDigits + 1
  length : n = chars.length
  take : digits.take n = chars

/-- The decoder of a reception for callback `h` in `WaitDigit`, with a fresh count and no error, having received `chars`. -/
structure Received (cfg : Cfg) (h : Handle) (chars : List Ascii) (mf : MfData) : Prop where
  state : mf.state = .waitDigit
  digCount : mf.digCount = 0
  error : mf.error = .ok
  cb : mf.cb = some h
  string : DigitString cfg chars mf.digits mf.ndigits

section
variable {cfg : Cfg} {h : Handle} {chars : List Ascii} {mf : MfData} {ch : Ascii}

theorem take_appended {digits : List Ascii} {n : Nat} (hlen : n < digits.length) :
    ((digits.set n ch).set (n + 1) 0).take (n + 1) = digits.take n ++ [ch] := by
  rw [List.take_set_of_le le_rfl, List.take_add_one, List.take_set_of_le le_rfl, List.getElem?_set_self hlen,
    Option.toList_some]

/-- An append with room extends the string by its character (R223). -/
theorem DigitString.mfAppend (hs : DigitString cfg chars mf.digits mf.ndigits) (hroom : chars.length < cfg.mfMaxDigits) :
    DigitString cfg (chars ++ [ch]) (mfAppend cfg ch mf).digits (mfAppend cfg ch mf).ndigits := by
  obtain ⟨hbuffer, hlength, htake⟩ := hs
  rw [mfAppend_eq, if_pos (hlength ▸ hroom), if_pos (hlength ▸ hroom)]
  exact
    { buffer := by rwa [List.length_set, List.length_set]
      length := by rw [hlength, List.length_append, List.length_singleton]
      take := by rw [take_appended (by omega), htake] }

theorem error_mfAppend (cfg : Cfg) (ch : Ascii) (mf : MfData) : (mfAppend cfg ch mf).error = mf.error := by
  rw [mfAppend_eq]

theorem cb_mfAppend (cfg : Cfg) (ch : Ascii) (mf : MfData) : (mfAppend cfg ch mf).cb = mf.cb := by
  rw [mfAppend_eq]

/-- The gate count's KP frames and a silent one, from a fresh seizure (R226, R227). -/
theorem feed_kp (hst : mf.state = .waitKp) (hcount : mf.kpCount = 0) (herror : mf.error = .ok) (hcb : mf.cb = some h)
    (hs : DigitString cfg [] mf.digits mf.ndigits) (hgate : 1 ≤ cfg.minKpGateBlockCount) (hmax : 1 ≤ cfg.mfMaxDigits) :
    ∃ mf', Received cfg h [0x2A] mf' ∧
      feed cfg (List.replicate cfg.minKpGateBlockCount (.valid kpMask) ++ [.silence]) mf = (mf', []) := by
  obtain ⟨k, hk⟩ := Nat.exists_eq_add_of_le' hgate
  have hcounted := feed_replicate_kp (cfg := cfg) (k := k) hst hcount (by omega)
  have haccepted := mfdStep_waitKp_accepts (cfg := cfg) (mf := { mf with kpCount := k }) hst hk.le
  rw [hk, List.replicate_succ', feed_concat_of_eq ((feed_concat_of_eq hcounted).trans haccepted),
    mfdStep_kpSilence_silence rfl]
  refine ⟨_, ?_, rfl⟩
  exact
    { state := rfl
      digCount := rfl
      error := (error_mfAppend cfg 0x2A { mf with kpCount := k }).trans herror
      cb := (cb_mfAppend cfg 0x2A { mf with kpCount := k }).trans hcb
      string := DigitString.mfAppend (mf := { mf with kpCount := k }) hs hmax }

/-- The decoder at the last frame of the code, about to see silence (R228). -/
def pendingDigit (cfg : Cfg) (m : Mask) (ch : Ascii) (mf : MfData) : MfData :=
  { mf with cand := m, digCount := cfg.minDigitBlockCount, pend := some ch, timer := 0, state := .waitDigitSilence }

theorem Received.feed_code (hr : Received cfg h chars mf) {m : Mask} (hdec : mfDecode cfg m = some ch)
    (hpos : 1 ≤ cfg.minDigitBlockCount) :
    feed cfg (List.replicate cfg.minDigitBlockCount (.valid m) ++ [.silence]) mf =
      mfdStep cfg .silence (pendingDigit cfg m ch mf) :=
  feed_concat_of_eq (feed_replicate_valid_pends hr.state hr.digCount hdec hpos)

/-- The digit count's frames of a code that ends nothing, and a silent one: its digit is received (R228, R229). -/
theorem Received.feed_digit (hr : Received cfg h chars mf) {m : Mask} (hdec : mfDecode cfg m = some ch)
    (hterm : isTerminator ch = false) (hpos : 1 ≤ cfg.minDigitBlockCount) (hroom : chars.length < cfg.mfMaxDigits) :
    ∃ mf', Received cfg h (chars ++ [ch]) mf' ∧
      feed cfg (List.replicate cfg.minDigitBlockCount (.valid m) ++ [.silence]) mf = (mf', []) := by
  rw [hr.feed_code hdec hpos, mfdStep_waitDigitSilence_loops rfl rfl hterm]
  refine ⟨_, ?_, rfl⟩
  exact
    { state := rfl
      digCount := rfl
      error := (error_mfAppend cfg ch (pendingDigit cfg m ch mf)).trans hr.error
      cb := (cb_mfAppend cfg ch (pendingDigit cfg m ch mf)).trans hr.cb
      string := DigitString.mfAppend (mf := pendingDigit cfg m ch mf) hr.string hroom }

/-- The digit count's frames of a terminator, and a silent one: the reception completes with all it received (R229, R232). -/
theorem Received.feed_terminator (hr : Received cfg h chars mf) {m : Mask} (hdec : mfDecode cfg m = some ch)
    (hterm : isTerminator ch = true) (hpos : 1 ≤ cfg.minDigitBlockCount) (hroom : chars.length < cfg.mfMaxDigits) :
    ∃ mf', mf'.state = .waitRelease ∧
      feed cfg (List.replicate cfg.minDigitBlockCount (.valid m) ++ [.silence]) mf =
        (mf', [.mfDone (some h) .ok (chars ++ [ch]).length (chars ++ [ch])]) := by
  have hs : DigitString cfg (chars ++ [ch]) (Machine.mfAppend cfg ch (pendingDigit cfg m ch mf)).digits _ :=
    DigitString.mfAppend hr.string hroom
  rw [hr.feed_code hdec hpos, mfdStep_waitDigitSilence_completes rfl rfl hterm, hs.take, hs.length, error_mfAppend,
    cb_mfAppend]
  exact ⟨_, rfl, by rw [pendingDigit, hr.error, hr.cb]⟩

end

/-- Settles O46: KP, one digit, one terminator. -/
theorem shortestSequenceIsAccepted : Obligations.ShortestSequenceIsAccepted := by
  intro cfg mf h hgate hpos hmax hdec2 hdecST hst hcount hempty hbuffer herror hcb
  have hempty' : DigitString cfg [] mf.digits mf.ndigits := ⟨hbuffer, hempty, by rw [hempty, List.take_zero]⟩
  obtain ⟨mf₁, hr₁, hkp⟩ := feed_kp hst hcount herror hcb hempty' hgate (by omega)
  obtain ⟨mf₂, hr₂, hdigit⟩ := hr₁.feed_digit hdec2 (by decide) hpos (Nat.lt_of_succ_lt hmax)
  obtain ⟨mf₃, hrelease, hend⟩ := hr₂.feed_terminator hdecST (by decide) hpos hmax
  rw [← feed_append_of_eq hdigit, ← feed_append_of_eq hkp] at hend
  simp only [List.append_assoc] at hend ⊢
  rw [hend]
  exact ⟨hrelease, rfl⟩

end Sys2Proof.Machine
end

section
/-! SUPPORT. What receiver instructions do in `WaitRelease` (44_mf_decoder.md R233; 45_mf_receiver.md R251 to R255). -/

namespace Sys2Proof.Machine

section
variable {s t : State}

/-- A seized receiver turns a seize away (R251). -/
theorem execMfSeize_of_seized {cb : Word32} (hst : s.mr.mf.state ≠ .idle) (h : execMfSeize cb s = .next t) :
    t = s.reject (.desc 0) .resourceExhausted := by
  have hbody := (receiverCommand_next h).2
  rw [if_pos hst] at hbody
  cases hbody
  rfl

/-- A frame event in `WaitRelease` reads and writes nothing (R255). -/
theorem execMfHandleBuffer_of_waitRelease {half : BitVec 4} (hst : s.mr.mf.state = .waitRelease)
    (h : execMfHandleBuffer half s = .next t) : t = s.respond .nothing := by
  obtain ⟨hf, hbody⟩ := hardwareEvent_withHalf_next h
  rw [if_pos (.inr hst)] at hbody
  cases hbody
  rfl

/-- A release that completes leaves the receiver as it was, or had its descriptor and freed it (R253). -/
theorem execMfRelease_next {desc : Word32} (h : execMfRelease desc s = .next t) :
    t.mr = s.mr ∨ (desc = s.mr.mf.desc ∧ t.mr.mf = releasedMf s.mr.mf) := by
  have hbody := (receiverCommand_next h).2
  split at hbody
  · cases hbody; exact .inl rfl
  · next hmatch =>
    obtain ⟨-, hdesc⟩ := not_or.1 hmatch
    split at hbody
    · cases hbody; exact .inl rfl
    · cases hbody; exact .inr ⟨not_not.1 hdesc, rfl⟩

end

/-- Settles O59: of all instructions only a matching release changes the receiver's record in `WaitRelease`. -/
theorem waitReleaseIsLeftOnlyByRelease : Obligations.WaitReleaseIsLeftOnlyByRelease := by
  intro i s t h hst hleft
  have hkept : t.mr ≠ s.mr := fun e => hleft (by rw [e, hst])
  cases i with
  | mfRelease desc =>
    rcases execMfRelease_next h with e | ⟨rfl, e⟩
    · exact absurd e hkept
    · exact ⟨rfl, by rw [e, releasedMf_state]⟩
  | mfSeize cb =>
    have e := execMfSeize_of_seized (by rw [hst]; decide) h
    exact absurd (by rw [e, State.reject_mr]) hkept
  | mfHandleBuffer half =>
    have e := execMfHandleBuffer_of_waitRelease hst h
    exact absurd (by rw [e, State.respond_mr]) hkept
  | tsSeize | tsRelease | tsCpt | tsSendMf | tsSendDtmf | tsSend | tsSendLoop | tsStop | tsRequestBlock =>
    exact absurd (exec_mr_of_isTone rfl h) hkept

end Sys2Proof.Machine
end

section
/-! SUPPORT. The receiver's two commands and its frame event: one equation per case of each (45_mf_receiver.md R250 to R255). -/

namespace Sys2Proof.Machine

/-! ## Admission (R254, R281) -/

theorem receiverCommand_of_task {s : State} (hctx : s.ctx = .task) (k : Host.Outcome State Fault Refusal) :
    receiverCommand s k = k := by
  rw [receiverCommand, hctx]

theorem receiverCommand_of_mfCallback {s : State} (hctx : s.ctx = .mfCallback) (k : Host.Outcome State Fault Refusal) :
    receiverCommand s k = .fault .deadlock := by
  rw [receiverCommand, hctx]

/-- Settles O36: neither command is admitted from there, whatever its body would do. -/
theorem receiverCommandInItsCallbackDeadlocks : Obligations.ReceiverCommandInItsCallbackDeadlocks :=
  fun _ _ hctx => ⟨receiverCommand_of_mfCallback hctx _, receiverCommand_of_mfCallback hctx _⟩

/-! ## `MF_SEIZE` (R251) -/

section
variable {s : State} {cb : Word32}

theorem exec_mfSeize_of_seized (hctx : s.ctx = .task) (hst : s.mr.mf.state ≠ .idle) :
    exec (.mfSeize cb) s = .next (s.reject (.desc 0) .resourceExhausted) := by
  rw [exec, execMfSeize, receiverCommand_of_task hctx, if_pos hst]

theorem exec_mfSeize_of_noCallback (hctx : s.ctx = .task) (hst : s.mr.mf.state = .idle) :
    exec (.mfSeize 0) s = .next (s.reject (.desc 0) .invalidArgument) := by
  rw [exec, execMfSeize, receiverCommand_of_task hctx, if_neg (not_not.2 hst), handleOf_zero]

theorem exec_mfSeize_of_ok (hctx : s.ctx = .task) (hst : s.mr.mf.state = .idle) (hcb : cb ≠ 0)
    (hdrv : s.env.drvStart = .ok) :
    exec (.mfSeize cb) s = .next ((({ s with draws := s.draws + 1 }.setSampling true).setMf
      (seizedMf s.mr.mf cb (drawDescriptor s.draws))).respond (.desc (drawDescriptor s.draws))) := by
  rw [exec, execMfSeize, receiverCommand_of_task hctx, if_neg (not_not.2 hst), handleOf_pos hcb, hdrv]

theorem exec_mfSeize_of_fail (hctx : s.ctx = .task) (hst : s.mr.mf.state = .idle) (hcb : cb ≠ 0)
    (hdrv : s.env.drvStart = .fail) : exec (.mfSeize cb) s = raiseFatal s .driverFailure := by
  rw [exec, execMfSeize, receiverCommand_of_task hctx, if_neg (not_not.2 hst), handleOf_pos hcb, hdrv]

end

/-- Settles O34: without a callback the command is turned away in either state, as seized or as a bad argument. -/
theorem mfSeizeStartsAReception : Obligations.MfSeizeStartsAReception := by
  refine ⟨fun _ => Laws.opOf_headerWord _ _ _, fun s cb hctx => ⟨fun hst => ?seized, ?noCallback, fun hst hcb hdrv => ?ok⟩⟩
  case seized => exact .of_reject (exec_mfSeize_of_seized hctx hst)
  case noCallback =>
    rintro rfl
    by_cases hst : s.mr.mf.state = .idle
    · exact .of_reject (exec_mfSeize_of_noCallback hctx hst)
    · exact .of_reject (exec_mfSeize_of_seized hctx hst)
  case ok => exact ⟨drawDescriptor s.draws, drawDescriptor_ne_zero _, .of_respond (exec_mfSeize_of_ok hctx hst hcb hdrv)⟩

/-! ## `MF_RELEASE` (R253) -/

section
variable {s : State} {desc : Word32}

theorem exec_mfRelease_of_noMatch (hctx : s.ctx = .task) (hno : desc = 0 ∨ desc ≠ s.mr.mf.desc) :
    exec (.mfRelease desc) s = .next (s.reject (.bool false) .invalidChannel) := by
  rw [exec, execMfRelease, receiverCommand_of_task hctx, if_pos hno]

/-- A nonzero descriptor that is the receiver's passes the command's check. -/
theorem descriptor_matches (hpos : desc ≠ 0) (hdesc : desc = s.mr.mf.desc) : ¬ (desc = 0 ∨ desc ≠ s.mr.mf.desc) :=
  not_or.2 ⟨hpos, not_not.2 hdesc⟩

theorem exec_mfRelease_of_ok (hctx : s.ctx = .task) (hpos : desc ≠ 0) (hdesc : desc = s.mr.mf.desc)
    (hdrv : s.env.drvStop = .ok) :
    exec (.mfRelease desc) s = .next (((s.setSampling false).setMf (releasedMf s.mr.mf)).respond (.bool true)) := by
  rw [exec, execMfRelease, receiverCommand_of_task hctx, if_neg (descriptor_matches hpos hdesc), hdrv]

theorem exec_mfRelease_of_fail (hctx : s.ctx = .task) (hpos : desc ≠ 0) (hdesc : desc = s.mr.mf.desc)
    (hdrv : s.env.drvStop = .fail) : exec (.mfRelease desc) s = raiseFatal s .driverFailure := by
  rw [exec, execMfRelease, receiverCommand_of_task hctx, if_neg (descriptor_matches hpos hdesc), hdrv]

end

/-- Settles O35. -/
theorem mfReleaseFreesTheReceiver : Obligations.MfReleaseFreesTheReceiver :=
  ⟨fun _ => Laws.opOf_headerWord _ _ _, fun _ _ hctx =>
    ⟨fun hno => .of_reject (exec_mfRelease_of_noMatch hctx hno),
      fun hpos hdesc hdrv => .of_respond (exec_mfRelease_of_ok hctx hpos hdesc hdrv)⟩⟩

/-! ## A failing driver (R250, R279) -/

/-- A command that raises the fatal state returns nothing and changes the flag alone. -/
theorem Returns.of_raiseFatal {i : Instr} {s : State} {kind : ErrorKind} (h : exec i s = raiseFatal s kind) :
    Returns i s .nothing { s with fatal := true } :=
  ⟨some kind, h.trans (raiseFatal_eq s kind)⟩

theorem step_of_fatal {s : State} (h : s.fatal = true) : step s = .fault .fatalHalt := if_pos h

/-- Settles O37. -/
theorem driverFailureIsFatal : Obligations.DriverFailureIsFatal :=
  fun _ _ hctx hpos =>
    ⟨fun hst hdrv => .of_raiseFatal (exec_mfSeize_of_fail hctx hst hpos hdrv),
      fun hdesc hdrv => .of_raiseFatal (exec_mfRelease_of_fail hctx hpos hdesc hdrv),
      step_of_fatal rfl⟩

/-! ## The raw frame (R63, R202) -/

theorem rawFrom_eq_map_range' (s : State) (h : Half) (n i : Nat) :
    rawFrom s h n i = (List.range' i n).map fun k => (s.readAdc h k).toNat := by
  induction n generalizing i with
  | zero => rfl
  | succ n ih => rw [rawFrom, ih, List.range'_succ, List.map_cons]

theorem rawFrame_eq_map_range (s : State) (h : Half) :
    rawFrame s h = (List.range 320).map fun n => (s.readAdc h n).toNat := by
  rw [List.range_eq_range']
  exact rawFrom_eq_map_range' s h frameN 0

/-- The frame is admitted when each of its 320 samples is one the ADC may answer (U18). -/
theorem all_rawOk_iff (s : State) (h : Half) :
    (rawFrame s h).all (rawOk s.cfg) = true ↔ ∀ n, n < 320 → (s.readAdc h n).toNat < 2 ^ s.cfg.adcBits := by
  simp only [rawFrame_eq_map_range, rawOk, List.all_map, List.all_eq_true, List.mem_range, Function.comp_apply,
    decide_eq_true_eq]

/-! ## `MF_HANDLE_BUFFER` (R255) -/

theorem exec_mfHandleBuffer_badHalf {s : State} {half : BitVec 4} (hctx : s.ctx = .adcSignal) (hbad : 2 ≤ half.toNat) :
    exec (.mfHandleBuffer half) s = .refused .badHalfIndex := by
  rw [exec, execMfHandleBuffer, hardwareEvent_of_ctx hctx, withHalf_of_bad hbad]

section
variable {s : State} {half : BitVec 4} {h : Half}

theorem exec_mfHandleBuffer_of_notReceiving (hctx : s.ctx = .adcSignal) (hhalf : halfOf half = some h)
    (hst : s.mr.mf.state = .idle ∨ s.mr.mf.state = .waitRelease) :
    exec (.mfHandleBuffer half) s = .next (s.respond .nothing) := by
  rw [exec, execMfHandleBuffer, hardwareEvent_of_ctx hctx, withHalf_of_half hhalf, if_pos hst]

/-- In reception the event turns on the samples alone. -/
theorem exec_mfHandleBuffer_of_receiving (hctx : s.ctx = .adcSignal) (hhalf : halfOf half = some h)
    (hidle : s.mr.mf.state ≠ .idle) (hrelease : s.mr.mf.state ≠ .waitRelease) :
    exec (.mfHandleBuffer half) s =
      if (rawFrame s h).all (rawOk s.cfg) then .next ((processFrame s (rawFrame s h)).respond .nothing)
      else .refused .adcSampleOutOfRange := by
  rw [exec, execMfHandleBuffer, hardwareEvent_of_ctx hctx, withHalf_of_half hhalf, if_neg (not_or.2 ⟨hidle, hrelease⟩)]

end

/-- Settles O38: in reception `all_rawOk_iff` decides between the frame and the refusal. -/
theorem handleBufferProcessesOneFrame : Obligations.HandleBufferProcessesOneFrame := by
  refine ⟨fun _ => Laws.opOf_headerWord _ _ _, fun _ _ => exec_mfHandleBuffer_badHalf, fun s half h hctx hhalf =>
    ⟨fun hst => ?outside, fun hidle hrelease hrange => ?inRange, fun hidle hrelease hout => ?outOfRange⟩⟩
  case outside => exact .of_respond (exec_mfHandleBuffer_of_notReceiving hctx hhalf hst)
  case inRange =>
    have hexec := exec_mfHandleBuffer_of_receiving hctx hhalf hidle hrelease
    rw [if_pos ((all_rawOk_iff s h).2 hrange)] at hexec
    exact ⟨rawFrame s h, gzFrame s.cfg (rawFrame s h) s.mr, rawFrame_eq_map_range s h, rfl, .of_respond hexec⟩
  case outOfRange =>
    obtain ⟨n, hn, hle⟩ := hout
    have hbad : ¬ (rawFrame s h).all (rawOk s.cfg) = true := fun hall => hle.not_gt ((all_rawOk_iff s h).1 hall n hn)
    rw [exec_mfHandleBuffer_of_receiving hctx hhalf hidle hrelease, if_neg hbad]

end Sys2Proof.Machine
end

section
/-! SUPPORT. The context each instruction is admitted from: every command and event begins with its admission check
(60_exceptions.md R281, R278). -/

namespace Sys2Proof.Machine

section
variable {i : Instr} {s : State} {k : Host.Outcome State Fault Refusal}

/-! ## The wrong context, check by check -/

theorem toneCommand_of_toneCallback (hctx : s.ctx = .toneCallback) :
    toneCommand s k = .refused .commandInToneCallback := by
  rw [toneCommand, hctx]

theorem toneCommand_of_signal (hctx : s.ctx = .outSignal ∨ s.ctx = .adcSignal) :
    toneCommand s k = .refused .wrongContext := by
  rcases hctx with h | h <;> rw [toneCommand, h]

theorem receiverCommand_of_toneCallback (hctx : s.ctx = .toneCallback) :
    receiverCommand s k = .refused .commandInToneCallback := by
  rw [receiverCommand, hctx]

theorem receiverCommand_of_signal (hctx : s.ctx = .outSignal ∨ s.ctx = .adcSignal) :
    receiverCommand s k = .refused .wrongContext := by
  rcases hctx with h | h <;> rw [receiverCommand, h]

theorem hardwareEvent_of_ctx_ne {signal : Ctx} (hctx : s.ctx ≠ signal) :
    hardwareEvent signal s k = .refused .wrongContext := if_neg hctx

/-! ## The check each instruction begins with -/

/-- A command is a tone-engine command or a receiver command. -/
theorem exec_eq_command (hcmd : isEvent i = false) (s : State) :
    (∃ k, exec i s = toneCommand s k) ∨ (∃ k, exec i s = receiverCommand s k) := by
  cases i with
  | tsSeize | tsRelease | tsCpt | tsSendMf | tsSendDtmf | tsSend | tsSendLoop | tsStop => exact .inl ⟨_, rfl⟩
  | mfSeize | mfRelease => exact .inr ⟨_, rfl⟩
  | tsRequestBlock | mfHandleBuffer => cases hcmd

/-- The tone engine's event is raised by the outbound signal. -/
theorem exec_eq_outEvent (hevent : isEvent i = true) (htone : isTone i = true) (s : State) :
    ∃ k, exec i s = hardwareEvent .outSignal s k := by
  cases i with
  | tsRequestBlock => exact ⟨_, rfl⟩
  | mfHandleBuffer => cases htone
  | _ => cases hevent

/-- The receiver's event is raised by the inbound signal. -/
theorem exec_eq_adcEvent (hevent : isEvent i = true) (hreceiver : isTone i = false) (s : State) :
    ∃ k, exec i s = hardwareEvent .adcSignal s k := by
  cases i with
  | mfHandleBuffer => exact ⟨_, rfl⟩
  | tsRequestBlock => cases hreceiver
  | _ => cases hevent

end

/-- Settles O39: an instruction from the wrong context is turned away by its own check, before its body. -/
theorem onlyTheRightContextIssues : Obligations.OnlyTheRightContextIssues := by
  refine fun i s => ⟨fun hcmd hctx => ?callback, fun hcmd hctx => ?signal, fun hevent htone hctx => ?outEvent,
    fun hevent hreceiver hctx => ?adcEvent⟩
  case callback =>
    obtain ⟨k, hexec⟩ | ⟨k, hexec⟩ := exec_eq_command hcmd s
    · rw [hexec, toneCommand_of_toneCallback hctx]
    · rw [hexec, receiverCommand_of_toneCallback hctx]
  case signal =>
    obtain ⟨k, hexec⟩ | ⟨k, hexec⟩ := exec_eq_command hcmd s
    · rw [hexec, toneCommand_of_signal hctx]
    · rw [hexec, receiverCommand_of_signal hctx]
  case outEvent =>
    obtain ⟨k, hexec⟩ := exec_eq_outEvent hevent htone s
    rw [hexec, hardwareEvent_of_ctx_ne hctx]
  case adcEvent =>
    obtain ⟨k, hexec⟩ := exec_eq_adcEvent hevent hreceiver s
    rw [hexec, hardwareEvent_of_ctx_ne hctx]

end Sys2Proof.Machine
end

section
/-! SUPPORT. The zero-cross deferral is bounded: oscillators that have advanced together from phase 0 come back to it within 65536
ticks (70_reset_and_hazards.md R313; 40_nco.md R109). -/

namespace Sys2Proof.Machine

/-! ## Back at phase 0 -/

theorem oscAfter_phase_of_advanced (cfg : Cfg) {n m : Nat} {o : Osc} (hadv : advanced n o) (hsounds : o.freq ≠ 0)
    (hperiod : 65536 ∣ n + m) : (oscAfter cfg m o).phase = 0 := by
  have hphase : o.phase = BitVec.ofNat 16 (n * o.tw.toNat) := hadv.resolve_left hsounds
  rw [oscAfter_sounding cfg m hsounds]
  dsimp only
  rw [hphase, ← BitVec.ofNat_add, ← Nat.add_mul]
  exact BitVec.eq_of_toNat_eq (Nat.mod_eq_zero_of_dvd (hperiod.mul_right _))

/-- A silent component gives 0 at any phase, and a sounding one is back at phase 0. -/
theorem ncoTick_sample_of_advanced (cfg : Cfg) {n m : Nat} {o : Osc} (hadv : advanced n o) (hperiod : 65536 ∣ n + m) :
    (ncoTick cfg (oscAfter cfg m o)).2 = (ncoTick cfg { o with phase := 0 }).2 := by
  by_cases hfreq : o.freq = 0
  · rw [oscAfter_silent cfg m hfreq, ncoTick_silent cfg o hfreq, ncoTick_silent cfg { o with phase := 0 } hfreq]
  · have hback : oscAfter cfg m o = { o with phase := 0 } := by
      have hphase := oscAfter_phase_of_advanced cfg hadv hfreq hperiod
      rw [oscAfter_sounding cfg m hfreq] at hphase ⊢
      exact congrArg (fun phase => { o with phase := phase }) hphase
    rw [hback]

theorem pairTick_burstPath_of_advanced (cfg : Cfg) {n k : Nat} {ch : ChannelInfo} (h0 : advanced n ch.tone0)
    (h1 : advanced n ch.tone1) (hperiod : 65536 ∣ n + k) :
    (pairTick cfg (burstPath cfg ch k)).2 = (pairTick cfg (rewound ch)).2 := by
  simp only [pairTick, burstPath, afterSounding, rewound, ncoTick_sample_of_advanced cfg h0 hperiod,
    ncoTick_sample_of_advanced cfg h1 hperiod]

/-! ## The first sample in the band -/

/-- Where the burst's oscillators come into the band, its samples have a first one in the band, there or before. -/
theorem exists_first_sample_in_band {cfg : Cfg} {audio : Cells 16} {c : ChanId} {ch : ChannelInfo} {next : ChState}
    {nextTimer m : Nat} (hend : toneEnd cfg ch = some (next, nextTimer))
    (hin : (pairTick cfg (burstPath cfg ch (ch.timer + m))).2.toInt.natAbs ≤ cfg.zcThreshold) :
    ∃ z, z ≤ m ∧ (∀ k, k < z → cfg.zcThreshold < (sampleAt cfg audio c (ch.timer + k) ch).toInt.natAbs) ∧
      (sampleAt cfg audio c (ch.timer + z) ch).toInt.natAbs ≤ cfg.zcThreshold := by
  have hsome : ∃ z, z ≤ m ∧ (sampleAt cfg audio c (ch.timer + z) ch).toInt.natAbs ≤ cfg.zcThreshold := by
    by_contra hnone
    push Not at hnone
    have hrun := burst_quietRun (z := m) hend fun k hk => hnone k hk.le
    have hout := hnone m le_rfl
    rw [sampleAt_of_burstPath hend (hrun.chan _ le_rfl)] at hout
    exact hin.not_gt hout
  obtain ⟨hle, hfirst⟩ := Nat.find_spec hsome
  exact ⟨Nat.find hsome, hle,
    fun k hk => not_le.1 fun hk' => Nat.find_min hsome hk ⟨hk.le.trans hle, hk'⟩, hfirst⟩

/-- Settles O24: after `65535 n mod 65536` more ticks both oscillators have advanced a multiple of 65536 times since phase 0, so the
burst has met the band by then, and O22 says how it ends. -/
theorem zeroCrossDeferralIsBounded : Obligations.ZeroCrossDeferralIsBounded := by
  intro cfg audio c ch next nextTimer n hend htimer h0 h1 hband
  have hperiod : 65536 ∣ n + (ch.timer + 65535 * n % 65536) := by omega
  rw [← pairTick_burstPath_of_advanced cfg h0 h1 hperiod] at hband
  obtain ⟨z, hz, hout, hin⟩ := exists_first_sample_in_band (audio := audio) (c := c) hend hband
  obtain ⟨hstays, hends, -⟩ := toneBurstLastsTimerPlusDeferral cfg audio c ch next nextTimer z hend hout hin
  simp only [htimer, Nat.zero_add] at hstays hends
  refine ⟨z, by omega, fun k hk => ?_, ?_, ?_⟩
  · obtain ⟨hchan, -⟩ := hstays k hk
    rw [hchan]
  · rw [hends]
  · rw [hends]

end Sys2Proof.Machine
end

section
/-! SUPPORT. `WaitKp` without a KP frame (70_reset_and_hazards.md R318; 44_mf_decoder.md R226). -/

namespace Sys2Proof.Machine

/-- Settles O49, by induction on the frames: each one leaves the decoder in `WaitKp` with its KP count 0. -/
theorem waitKpNeverTimesOut : Obligations.WaitKpNeverTimesOut := by
  intro cfg cs
  induction cs with
  | nil => exact fun mf _ _ => ⟨rfl, rfl⟩
  | cons c cs ih =>
    intro mf hst hcs
    obtain ⟨hc, hcs⟩ := List.forall_mem_cons.1 hcs
    obtain ⟨hquiet, hmf⟩ := ih { mf with kpCount := 0 } hst hcs
    rw [feed, mfdStep_waitKp_other hst hc, hquiet, hmf]
    exact ⟨rfl, by simp⟩

end Sys2Proof.Machine
end

section
/-! SUPPORT. The state `SETUP` leaves: the reset values of the channels, the detectors and the decoder have the invariant
(70_reset_and_hazards.md R300, R302; 10_state.md R43; 00_scope.md R12). -/

namespace Sys2Proof.Machine

/-! ## A channel -/

theorem tuningWord_zero : tuningWord 0 = 0 := by decide +kernel

theorem gainsOk_zero (amp : Nat) : gainsOk amp 0 0 = true := by
  have hfloor : Rat.floor 0 = 0 := Rat.floor_intCast 0
  simp [gainsOk, hfloor]

theorem ChanInv.reset (cfg : Cfg) : ChanInv cfg (ChannelInfo.reset cfg) :=
  ChanData.chanInv
    { didx_le := le_rfl, dlen_le := Nat.zero_le _, buffer := List.length_replicate, tw0 := tuningWord_zero.symm,
      tw1 := tuningWord_zero.symm, gains := gainsOk_zero _ }
    trivial

/-! ## The receiver -/

theorem DigitBuffer.blank (cfg : Cfg) : DigitBuffer cfg (List.replicate (cfg.mfMaxDigits + 1) 0) 0 where
  ndigits_le := Nat.zero_le _
  buffer := List.length_replicate
  terminated := rfl
  kp_first := nofun
  in_range := nofun
  last_terminator := nofun

theorem MfInv.reset (cfg : Cfg) : MfInv cfg (MfData.reset cfg) :=
  DecoderOk.mfInv ⟨DigitBuffer.blank cfg, rfl⟩ ⟨nofun, nofun⟩

/-- A radicand 0 is power 0 in every arithmetic (R206, U3). -/
theorem powerOf_eq_zero {g : GoertzelData} (h : g.power2 = 0) (nm : Numerics) : powerOf nm g = 0 := by
  cases nm with
  | exact => simp [powerOf, h]
  | platform id => simp [powerOf, platformRoot, h]

/-- A bank of reset detectors holds no power (R43). -/
theorem powerOf_reset {coeffs : Six Q} {g : GoertzelData} (hg : g ∈ (coeffs.map GoertzelData.reset).toList) (nm : Numerics) :
    powerOf nm g = 0 := by
  have hmap : g ∈ coeffs.toList.map GoertzelData.reset := hg
  obtain ⟨k, -, rfl⟩ := List.mem_map.1 hmap
  exact powerOf_eq_zero rfl nm

/-! ## The machine -/

theorem State.Inv.init {cfg : Cfg} (hw : Cfg.wellFormed cfg = true) : (State.init cfg).Inv where
  cfg := hw
  left := ChanInv.reset cfg
  right := ChanInv.reset cfg
  mf := MfInv.reset cfg
  sampling := ⟨nofun, fun h => absurd rfl h⟩
  coeffs := rfl
  frame := List.length_replicate
  mem := rfl

theorem State.init_ch (cfg : Cfg) (c : ChanId) : (State.init cfg).te.ch c = ChannelInfo.reset cfg := by
  cases c <;> rfl

theorem refCfg_wellFormed : Cfg.wellFormed refCfg = true := by decide +kernel

/-! ## `SETUP` (R300) -/

theorem setup_ok {cfg : Cfg} (hw : Cfg.wellFormed cfg = true) : setup cfg .ok = .next (State.init cfg) := if_pos hw

theorem setup_fail {cfg : Cfg} (hw : Cfg.wellFormed cfg = true) :
    setup cfg .fail = raiseFatal (State.init cfg) .driverFailure := if_pos hw

theorem setup_illFormed {cfg : Cfg} (hw : Cfg.wellFormed cfg = false) (a : DrvAnswer) :
    setup cfg a = .refused .illFormedConfig := if_neg (Bool.eq_false_iff.1 hw)

/-- Settles O54: the machine `SETUP` leaves has its reset values by construction, each part's reset value has its invariant, and the
other ends of `SETUP` are its own branches. -/
theorem setupEstablishesTheResetState : Obligations.SetupEstablishesTheResetState := by
  refine ⟨rfl, State.Inv.init refCfg_wellFormed, fun cfg => ⟨fun hw => ⟨State.Inv.init hw, ?ok, ?fail⟩, setup_illFormed⟩⟩
  case ok =>
    exact ⟨State.init cfg, setup_ok hw, rfl, rfl, State.init_ch cfg, fun _ _ => rfl, rfl,
      fun _ hg => powerOf_reset hg cfg.numerics, rfl, rfl, rfl, rfl, rfl⟩
  case fail => exact ⟨_, setup_fail hw, rfl, step_of_fatal rfl⟩

end Sys2Proof.Machine
end
